-- ==== Sys2Proof/Word.lean ====
section
/-!
DEFINITION. The words of the 6120: bytes, two-byte and four-byte fields, timer readings, and the three kinds of
index (robot number, zone id, line).
-/

namespace Sys2Proof

/-- One byte of a frame or record. -/
abbrev Byte := BitVec 8

/-- A two-byte field, sent low byte first. -/
abbrev Half := BitVec 16

/-- A four-byte field: an angle in mdeg, a step count, a gear factor. Signed fields are read with `toInt`. -/
abbrev Word := BitVec 32

/-- A reading of the part's 64-bit microsecond timer (R115). -/
abbrev Time := BitVec 64

/-- A robot number, 0–479 (00_scope.md, Names). -/
abbrev RobotNo := Fin 480

/-- A zone id, 0–1023 (R43). -/
abbrev ZoneId := Fin 1024

/-- A line: 0 is A, 1 is B, 2 is C, 3 is D (10.6). -/
abbrev LineNo := Fin 4

/-- A profile number, 0–15 (R23). -/
abbrev ProfileNo := Fin 16

end Sys2Proof
end

