-- ==== Sys2Proof/Syntax.lean ====
section
/-!
DEFINITION. The commands of the 6120: one constructor for each row of spec/opcode_table.json.

A trunk request carries its frame's destination field and the payload fields of 10.3 (`dest`, then the fields in
their order). A line event carries its line and the reading `t` of the microsecond timer at which it happens.
-/

namespace Sys2Proof

/-- A command: a row of spec/opcode_table.json with its operands. -/
inductive Instr where
  /-- MOVE (R25): target angles and profile number. -/
  | move (dest : Half) (hub elbow : Word) (profile : Byte)
  /-- RETRACE (R31). -/
  | retrace (dest : Half) (profile : Byte)
  /-- HOME (R32). -/
  | home (dest : Half) (profile : Byte)
  /-- CANCEL (R64). -/
  | cancel (dest : Half)
  /-- HALT (R109). -/
  | halt (dest : Half)
  /-- REFRESH (R111). -/
  | refresh (dest : Half)
  /-- REPORT (R17). -/
  | report (dest : Half)
  /-- LOAD of kind ROBOT (R6): the records are the bytes after the header. -/
  | loadRobot (dest first count : Half) (records : List Byte)
  /-- LOAD of kind CURVE (R22). -/
  | loadCurve (dest first count : Half) (records : List Byte)
  /-- LOAD of kind PROFILE (R24). -/
  | loadProfile (dest first count : Half) (records : List Byte)
  /-- LOAD of kind ZONE (R59). -/
  | loadZone (dest first count : Half) (records : List Byte)
  /-- LOAD of kind LINE_TIMING (R137). -/
  | loadLineTiming (dest first count : Half) (records : List Byte)
  /-- LOAD of kind EPOCH (R151). -/
  | loadEpoch (dest first count : Half) (records : List Byte)
  /-- READ of kind ROBOT (R20). -/
  | readRobot (dest first count : Half)
  /-- READ of kind CURVE (R22). -/
  | readCurve (dest first count : Half)
  /-- READ of kind PROFILE (R24). -/
  | readProfile (dest first count : Half)
  /-- READ of kind ZONE (R60). -/
  | readZone (dest first count : Half)
  /-- READ of kind LINE_TIMING (R137). -/
  | readLineTiming (dest first count : Half)
  /-- READ of kind EPOCH (R152). -/
  | readEpoch (dest first count : Half)
  /-- READ of kind ROBOT_STATE (R17). -/
  | readRobotState (dest first count : Half)
  /-- READ of kind ZONE_STATE (R60). -/
  | readZoneState (dest first count : Half)
  /-- READ of kind DEFERRED (R67). -/
  | readDeferred (dest first count : Half)
  /-- READ of kind WAVE (R89). -/
  | readWave (dest first count : Half)
  /-- FLAGS with operation SET (R11). -/
  | flagsSet (dest first last : Half) (mask : Byte)
  /-- FLAGS with operation CLEAR (R11). -/
  | flagsClear (dest first last : Half) (mask : Byte)
  /-- FLAGS with operation TOGGLE (R11). -/
  | flagsToggle (dest first last : Half) (mask : Byte)
  /-- COMMIT (R68). -/
  | commit (dest : Half) (lead chainCount chainLead : Byte)
  /-- ABORT (R87). -/
  | abort (dest : Half)
  /-- TAKE (R179). -/
  | take (dest : Half)
  /-- MASK (R177): one byte for each group. -/
  | mask (dest : Half) (fault timing flow link : Byte)
  /-- STATUS (R169). -/
  | status (dest : Half)
  /-- LINE_RESET (R135). -/
  | lineReset (dest : Half) (lines : Byte)
  /-- RESET (R170). -/
  | reset (dest : Half)
  /-- TRUNK_FRAME_COMPLETE (R155): the frame's fields as received and the CRC received. -/
  | trunkFrameComplete (dest : Half) (kind : Byte) (payload : List Byte) (crc : Half)
  /-- TRUNK_LENGTH_OVERSIZE (R154): the length field received. -/
  | trunkLengthOversize (length : Half)
  /-- TRUNK_GAP_ABANDON (R156). -/
  | trunkGapAbandon
  /-- TRUNK_SKIP_QUIET (R154). -/
  | trunkSkipQuiet
  /-- REPLY_SENT (R159). -/
  | replySent
  /-- RESET_N_ASSERT (R172). -/
  | resetNAssert
  /-- POWER_ON_RESET (R172). -/
  | powerOnReset
  /-- EPOCH_MARK (R143). -/
  | epochMark
  /-- EPOCH_PULSE (R145). -/
  | epochPulse (t : Time)
  /-- LINE_ARBITER_CHOOSE (R122). -/
  | lineArbiterChoose (line : LineNo) (t : Time)
  /-- LINE_FRAME_SENT (R131). -/
  | lineFrameSent (line : LineNo) (t : Time)
  /-- BROADCAST_SENT (R129). -/
  | broadcastSent (line : LineNo) (t : Time)
  /-- NEXT_FRAME_SEND (R131). -/
  | nextFrameSend (line : LineNo) (t : Time)
  /-- END_FRAME_SEND (R130). -/
  | endFrameSend (line : LineNo) (t : Time)
  /-- END_SENT (R130). -/
  | endSent (line : LineNo) (t : Time)
  /-- ANSWER_READY (R126). -/
  | answerReady (line : LineNo) (t : Time)
  /-- ANSWER_NOT_READY (R126). -/
  | answerNotReady (line : LineNo) (t : Time)
  /-- ANSWER_ACCEPT (R127). -/
  | answerAccept (line : LineNo) (t : Time)
  /-- ANSWER_RETRY (R127). -/
  | answerRetry (line : LineNo) (t : Time)
  /-- ANSWER_REFUSE (R127): the robot's fault code. -/
  | answerRefuse (line : LineNo) (t : Time) (fault : Byte)
  /-- ANSWER_POLL (R96): the payload fields of a POLL answer. -/
  | answerPoll (line : LineNo) (t : Time) (code posOk fault : Byte) (wave remaining : Half)
  /-- ANSWER_STATUS (R105): the payload fields of a STATUS answer. -/
  | answerStatus (line : LineNo) (t : Time) (code posOk fault : Byte) (wave : Half) (hub elbow : Word)
  /-- ANSWER_GARBLED (R132): the bytes received, from the start character. -/
  | answerGarbled (line : LineNo) (t : Time) (bytes : List Byte)
  /-- ANSWER_WAIT_SILENCE (R131). -/
  | answerWaitSilence (line : LineNo) (t : Time)
  /-- ANSWER_CHAR_GAP (R131). -/
  | answerCharGap (line : LineNo) (t : Time)
  /-- READ_ANSWER_DEADLINE (R131). -/
  | readAnswerDeadline (line : LineNo) (t : Time)
  /-- STRAY_CHARACTER (R122). -/
  | strayCharacter (line : LineNo) (t : Time)
  /-- OVERRUN_DEADLINE (R103): the deadline of the robot's member runs out. -/
  | overrunDeadline (robot : RobotNo) (t : Time)
  /-- START_CHARACTER (R154). -/
  | startCharacter
  /-- ANSWER_BEGUN (R131). -/
  | answerBegun (line : LineNo) (t : Time)
  deriving DecidableEq, Repr

end Sys2Proof
end

