-- ==== Sys2Proof/Decode.lean ====
section
/-!
DEFINITION. The commands that a word spells. spec/opcode_table.json gives no row any bits, so there are none.
-/

namespace Sys2Proof

/-- The command a word of `nbits` bits spells: none, since no row of spec/opcode_table.json has a fixed bit or a field
(log entry 3). A trunk request is spelled by a frame, which `Machine.parseRequest` reads (R161). -/
def decodeTableWord (_nbits _w : Nat) : Option Instr := none

end Sys2Proof
end

