-- ==== Sys2Proof/Config.lean ====
section
/-!
DEFINITION. The constants of the 6120: axis ranges, capacities and character times; and its free values, the fields of a READ of
WAVE for which the spec gives no value.
-/

namespace Sys2Proof.Config

/-- Lowest hub angle, mdeg (00_scope.md, Axes). -/
def hubLow : Int := -190000
/-- Highest hub angle, mdeg (00_scope.md, Axes). -/
def hubHigh : Int := 190000
/-- Lowest elbow angle, mdeg (00_scope.md, Axes). -/
def elbowLow : Int := 0
/-- Highest elbow angle, mdeg (00_scope.md, Axes). -/
def elbowHigh : Int := 190000
/-- Knot spacing of a curve used for the hub axis (R21). -/
def hubSpacing : Int := 23750
/-- Knot spacing of a curve used for the elbow axis (R21). -/
def elbowSpacing : Int := 11875
/-- The unit of gear factors, coupling and increments: 1/65 536 (00_scope.md, Units). -/
def unit : Int := 65536
/-- Largest gear factor (R5). -/
def gearMax : Nat := 16777215
/-- Largest magnitude of the coupling (R5). -/
def couplingMax : Int := 65536
/-- Longest duration of a segment, in intervals (R37). -/
def longestMove : Nat := 65535
/-- Depth of the retrace stack (R13). -/
def stackDepth : Nat := 4
/-- Capacity of the deferred list (R65). -/
def deferredMax : Nat := 64
/-- The deferral count at which a move is dropped EXPIRED (R66). -/
def expiry : Nat := 8
/-- Capacity of the inbound queue (R157). -/
def queueDepth : Nat := 8
/-- Largest payload of a trunk frame (R154). -/
def payloadMax : Nat := 512
/-- Drop of a line broadcast (R2). -/
def broadcastDrop : Byte := 127
/-- Four line character times of 20 µs each (R131). -/
def charGap : Nat := 80
/-- Most links of a robot record (R4). -/
def linksMax : Nat := 6

/-- Free value (log entry 14): what the wave summary shows with no wave record in a field that R89 and R169 do not give, by the
field's offset. -/
opaque unstatedSummary : Nat → Nat

/-- Free value (log entry 29): what a WAVE position beyond the members shows after robot none, by the position and the field's
offset. -/
opaque unstatedEntry : Nat → Nat → Nat

end Sys2Proof.Config
end

