-- ==== Sys2Proof/Machine/State.lean ====
section
/-!
DEFINITION. The state of the 6120 as plain data: every table, list, register, counter and flag that spec/ gives the
part, with its value after power-on reset.
-/

namespace Sys2Proof.Machine

/-! ### Names with numeric codes (10.6) -/

/-- Slot state of a robot (R8), in the order of its codes 0–6. -/
inductive SlotState where
  | absent | uncertain | idle | arming | armed | moving | stopping
  deriving DecidableEq, Repr

/-- Rest state of a robot: where it returns when its admitted move is undone (R10). -/
inductive RestState where
  | uncertain | idle
  deriving DecidableEq, Repr

/-- Fence mode (R3), in the order of its codes 0–2. -/
inductive FenceMode where
  | off | inside | outside
  deriving DecidableEq, Repr

/-- Outcome of a member, or disposition of a move record (R10), in the order of its codes 0–12. `none` is also the
undecided outcome of a member (R74). -/
inductive Ending where
  | none | arrived | null | missed | haltedAtStart | haltedUnknown | stalled | overrun | lost
  | withdrawn | deferred | dropped | reset
  deriving DecidableEq, Repr

/-- Reason of a refusal, a drop, a deferral or an outcome (10.6). -/
inductive Reason where
  | none | absent | disabled | lineDown | uncertain | empty | fenced | long | range | zone | expired | overflow
  | refused | mismatch | lostSeg | drift | lineReset | locked | badAddr | duplicate | badLimit | badGear | badLink
  | badHome | active | noWave | notFound | length | kind | dest | index
  deriving DecidableEq, Repr

/-- Status of a reply (R160), in the order of its codes 0–4. -/
inductive Status where
  | ok | clamped | queued | refused | error
  deriving DecidableEq, Repr

/-- Kind of a move record or member (10.6), codes 1–3. -/
inductive MoveKind where
  | goto | retrace | home
  deriving DecidableEq, Repr

/-- State of the wave record (R75); the absent record is NONE. -/
inductive WaveState where
  | arming | armed | running | aborting | done
  deriving DecidableEq, Repr

/-- Origin of a wave (R73), codes 1 and 2. -/
inductive Origin where
  | request | chain
  deriving DecidableEq, Repr

/-- Delivery state of a member (R74), codes 1–5. -/
inductive Delivery where
  | listed | inFlight | accepted | clearing | closed
  deriving DecidableEq, Repr

/-- State of a line engine (R116), in the order of its codes 0–5. -/
inductive EngineState where
  | idle | calling | awaiting | sending | ending | down
  deriving DecidableEq, Repr

/-- Mode of the timebase (R142), in the order of its codes 0–2. -/
inductive EpochMode where
  | free | track | once
  deriving DecidableEq, Repr

/-- Lock status of the timebase (R150), in the order of its codes 0–2. -/
inductive LockStatus where
  | none | aligned | slipped
  deriving DecidableEq, Repr

/-- Receiving half of the trunk port (R154). -/
inductive RxState where
  | hunt | frame | skip
  deriving DecidableEq, Repr

/-- The eleven event classes (R173), in the order of their priorities 1–11. -/
inductive EventClass where
  | lineDown | zoneConflict | stall | lost | overrun | epochSlip | waveLate | chainStuck | deferDrop | waveDone
  | trunkError
  deriving DecidableEq, Repr

/-- The four mask groups (R173). -/
inductive Group where
  | fault | timing | flow | link
  deriving DecidableEq, Repr

/-! ### Robot Table -/

/-- A pair of signed 32-bit values, one for each axis: angles in mdeg or steps. -/
structure Pair where
  hub : Word
  elbow : Word
  deriving DecidableEq, Repr

/-- A position in both registers (00_scope.md, Axes and the Two Registers of Position). -/
structure Position where
  angles : Pair
  steps : Pair
  deriving DecidableEq, Repr

/-- A zone link: one zone as seen from the robot (R4). -/
structure Link where
  zone : ZoneId
  ws : Word
  we : Word
  thr : Word
  deriving DecidableEq, Repr

/-- The static fields of a robot record (1.1). -/
structure RobotStatic where
  present : Bool
  line : LineNo
  drop : Byte
  enable : Bool
  priority : Bool
  hubCurve : Byte
  elbowCurve : Byte
  gearHub : Word
  gearElbow : Word
  coupling : Word
  offHub : Word
  offElbow : Word
  hubMin : Word
  hubMax : Word
  elbowMin : Word
  elbowMax : Word
  fenceMode : FenceMode
  fs : Word
  fe : Word
  homeAngles : Pair
  homeSteps : Pair
  links : List Link
  deriving DecidableEq, Repr

/-- A robot record: static part, then the dynamic fields (1.1). -/
structure Robot where
  static : RobotStatic
  slot : SlotState
  believed : Position
  reported : Pair
  reportedValid : Bool
  fault : Byte
  /-- Retrace stack, top first (R13). -/
  stack : List Position
  lastOutcome : Ending
  lastReason : Reason
  rest : RestState
  deriving DecidableEq, Repr

/-! ### Calibration Store -/

/-- A curve: 17 knots, signed mdeg (R21). -/
abbrev Curve := Vector Half 17

/-- A profile (R23). -/
structure Profile where
  vHub : Half
  vElbow : Half
  nMin : Half
  grace : Half
  homeLimit : Word
  deriving DecidableEq, Repr

/-! ### Zone Table -/

/-- Holder state of a zone entry (R44). -/
inductive Holder where
  | free
  | moving (r : RobotNo)
  | parked (r : RobotNo)
  | blocked
  deriving DecidableEq, Repr

/-- A zone entry (R43).
`joinedA` and `joinedB` are the model's own (log entry 35): a ZONE load newly named that member while it was in a wave state (R59).
A HOME admitted from UNCERTAIN clears the flag of its robot. -/
structure Zone where
  memberA : Option RobotNo
  memberB : Option RobotNo
  holder : Holder
  joinedA : Bool
  joinedB : Bool
  deriving DecidableEq, Repr

/-! ### Wave Controller -/

/-- What a GOTO move record holds beyond robot, kind and profile (R30). -/
structure GotoTarget where
  angles : Pair
  steps : Pair
  hubClamped : Bool
  elbowClamped : Bool
  deriving DecidableEq, Repr

/-- Kind of a move record, with the target of a GOTO (R30 to R32). -/
inductive MoveWhat where
  | goto (target : GotoTarget)
  | retrace
  | home
  deriving DecidableEq, Repr

/-- A move record of the open wave (R30, R63). -/
structure MoveRecord where
  robot : RobotNo
  what : MoveWhat
  profile : ProfileNo
  deriving DecidableEq, Repr

/-- An entry of the deferred list (R65). Its last reason is ZONE for every entry. -/
structure Deferral where
  record : MoveRecord
  count : Nat
  deriving DecidableEq, Repr

/-- The segment of a planned GOTO or RETRACE (R38): direction of each axis, duration, increments and remainders. -/
structure Segment where
  hubNegative : Bool
  elbowNegative : Bool
  n : Half
  xHub : Word
  aHub : Half
  xElbow : Word
  aElbow : Half
  deriving DecidableEq, Repr

/-- What a DELIVER carries (R72): a segment body, or a home body of home steps and home limit. -/
inductive Body where
  | segment (g : Segment)
  | home (steps : Pair) (limit : Word)
  deriving DecidableEq, Repr

/-- A plan (R34 to R39). -/
structure Plan where
  /-- Start position; absent for a HOME from UNCERTAIN. -/
  start : Option Position
  target : Position
  body : Body
  deriving DecidableEq, Repr

/-- What the supervision of a STOPPING member waits for (R103 to R108): the phases of a halt and read-back.
The number is the round of the read-back, 1 or 2. -/
inductive StopPhase where
  | none
  | overrunHalt
  | halt (round : Nat)
  | read (round : Nat)
  | clear
  deriving DecidableEq, Repr

/-- A member of a wave (R40, R74). -/
structure Member where
  robot : RobotNo
  line : LineNo
  drop : Byte
  kind : MoveKind
  profile : ProfileNo
  plan : Plan
  grace : Half
  homeLimit : Word
  rest : RestState
  delivery : Delivery
  late : Bool
  /-- Clear cause: set when it is LINE_RESET (R77). -/
  clearLineReset : Bool
  /-- `Ending.none` while undecided. -/
  outcome : Ending
  reason : Reason
  goTime : Option Nat
  deadline : Option Nat
  remaining : Half
  stop : StopPhase
  deriving DecidableEq, Repr

/-- The four counts of a commit (R71). -/
structure CommitCounts where
  admitted : Nat
  deferred : Nat
  dropped : Nat
  null : Nat
  deriving DecidableEq, Repr

/-- The wave record (R73). Its members stand in admission order. -/
structure Wave where
  number : Half
  state : WaveState
  origin : Origin
  startMark : Word
  lead : Byte
  chainRemaining : Byte
  chainLead : Byte
  counts : CommitCounts
  members : List Member
  deriving DecidableEq, Repr

/-! ### Line Engines -/

/-- A line timing record (R137). -/
structure Timing where
  tCall : Half
  tBody : Half
  tShort : Half
  tRead : Half
  tTurn : Half
  tGap : Half
  nCall : Byte
  nBody : Byte
  pollPeriod : Half
  downLimit : Byte
  deriving DecidableEq, Repr

/-- The four counters of a line (R138). -/
structure LineCounters where
  transactions : Half
  retries : Half
  timeouts : Half
  garbled : Half
  deriving DecidableEq, Repr

/-- Kind of an urgent list entry (R119). -/
inductive UrgentKind where
  | clear | halt
  deriving DecidableEq, Repr

/-- An urgent list entry (R119). -/
structure UrgentEntry where
  robot : RobotNo
  kind : UrgentKind
  deriving DecidableEq, Repr

/-- A normal list entry (R120): a DELIVER, a READ, or both. The READ stands when `refresh` or `readBack` is set; the
two say which requests the one READ serves. -/
structure NormalEntry where
  robot : RobotNo
  deliver : Bool
  refresh : Bool
  readBack : Bool
  deriving DecidableEq, Repr

/-- A poll-cycle member, with the time its next poll falls due (R95). -/
structure PollEntry where
  robot : RobotNo
  due : Nat
  deriving DecidableEq, Repr

/-- What a pending GO holds: the wave's number and the line's excluded drop (R121). -/
structure GoFlag where
  wave : Half
  excluded : Byte
  deriving DecidableEq, Repr

/-- Kind of a transaction (R117), with the robot it addresses. -/
inductive TxnKind where
  | deliver (r : RobotNo)
  | read (r : RobotNo) (refresh readBack : Bool)
  | clear (r : RobotNo)
  | haltSingle (r : RobotNo)
  | poll (r : RobotNo)
  | go (flag : GoFlag)
  | haltAll
  deriving DecidableEq, Repr

/-- A frame of an exchange (R117, 10.7). -/
inductive FrameKind where
  | call
  | body (b : Body)
  | readRequest
  | endFrame
  | clear
  | halt
  | poll
  | go (flag : GoFlag)
  | haltAll
  deriving DecidableEq, Repr

/-- Where an exchange stands (R131): waiting for the quiet gap (and not before a time) to send a frame, sending it,
waiting since a time for its answer, or receiving the answer. -/
inductive Phase where
  | gap (next : FrameKind) (notBefore : Nat)
  | sending (f : FrameKind)
  | waiting (f : FrameKind) (since : Nat)
  | receiving (f : FrameKind) (since : Nat)
  deriving DecidableEq, Repr

/-- A transaction in flight (R117): the body a DELIVER took from its member, the drop and timing record taken at its
start, the call and body attempts used, where its exchange stands, and whether the robot's record has been reloaded since
it started (R7). -/
structure Txn where
  kind : TxnKind
  body : Option Body
  drop : Byte
  timing : Timing
  calls : Nat
  bodies : Nat
  phase : Phase
  stale : Bool
  deriving DecidableEq, Repr

/-- What an abandoned transaction leaves on the line (R136): a frame still going out, an answer still to come, or an answer
arriving, as its phase says.
`handOver` is set for a broadcast that a LINE_RESET lets end as R129 gives (R135). -/
structure Residue where
  txn : Txn
  handOver : Bool
  deriving DecidableEq, Repr

/-- A Line Engine and its line (R116 to R138). -/
structure Line where
  state : EngineState
  txn : Option Txn
  residue : Option Residue
  urgent : List UrgentEntry
  normal : List NormalEntry
  cycle : List PollEntry
  haltPending : Bool
  goPending : Option GoFlag
  silence : Nat
  counters : LineCounters
  timing : Timing
  /-- Time of the last character sent or received on the line (R122). -/
  lastChar : Nat
  deriving DecidableEq, Repr

/-- How a transaction ends (R118), as far as the judging rules tell the results apart. A failure for attempts and one
for no answer are judged alike; `lineReset` marks the cause LINE_RESET. -/
inductive TxnEnd where
  | accepted
  | polled (code : Byte) (posOk : Bool) (fault : Byte) (wave remaining : Half)
  | statused (code : Byte) (posOk : Bool) (fault : Byte) (counters : Pair)
  | refused (fault : Byte)
  | failed (lineReset : Bool)
  deriving DecidableEq, Repr

/-- A robot's answer on a line (R125, 10.7). -/
inductive Answer where
  | ready
  | notReady
  | accept
  | retry
  | refuse (fault : Byte)
  | poll (code posOk fault : Byte) (wave remaining : Half)
  | status (code posOk fault : Byte) (wave : Half) (hub elbow : Word)
  deriving DecidableEq, Repr

/-- A frame on a robot line, without start character and CRC (R124). -/
structure LineFrame where
  drop : Byte
  code : Byte
  payload : List Byte
  deriving DecidableEq, Repr

/-! ### Epoch Timebase -/

/-- The state of the Epoch Timebase (R142). -/
structure Epoch where
  mode : EpochMode
  period : Word
  window : Word
  running : Word
  /-- Time of the timer's last restart. -/
  tLast : Nat
  counter : Word
  lock : LockStatus
  /-- Last offset, signed µs. -/
  offset : Word
  deriving DecidableEq, Repr

/-! ### Trunk Port -/

/-- A good request frame (R155): its CRC has been checked and is not kept. -/
structure Frame where
  dest : Half
  kind : Byte
  payload : List Byte
  deriving DecidableEq, Repr

/-- A reply (R160), without start character, length and CRC. -/
structure Reply where
  dest : Half
  kind : Byte
  status : Status
  attention : Byte
  payload : List Byte
  deriving DecidableEq, Repr

/-- Dispatching half of the trunk port (R159). -/
inductive Dispatching where
  | waiting
  | replying (r : Reply)
  deriving DecidableEq, Repr

/-- The Trunk Port (R154 to R159). -/
structure Trunk where
  rx : RxState
  /-- Inbound queue, oldest at the head. -/
  queue : List Frame
  disp : Dispatching
  badCheck : Half
  overrun : Half
  gapAbandoned : Half
  deriving DecidableEq, Repr

/-! ### Event Unit -/

/-- The record of one event class (R173). -/
structure EventRec where
  count : Byte
  first : Half
  last : Half
  deriving DecidableEq, Repr

/-- The group masks (R173): `true` is masked. -/
structure Masks where
  fault : Bool
  timing : Bool
  flow : Bool
  link : Bool
  deriving DecidableEq, Repr

/-- The Event Unit: one record for each class, class code 1 first, and the masks. -/
structure Events where
  recs : Vector EventRec 11
  masks : Masks
  deriving DecidableEq, Repr

/-! ### The part -/

/-- The state of the 6120. -/
structure State where
  /-- Commands waiting, first in first out: the model's own queue. -/
  pending : List Instr
  /-- RESET_N is held low (R172). -/
  resetLow : Bool
  /-- The part's microsecond timer (R115). -/
  timer : Time
  robots : Vector Robot 480
  curves : Vector Curve 256
  profiles : Vector Profile 16
  zones : Vector Zone 1024
  openWave : List MoveRecord
  deferred : List Deferral
  wave : Option Wave
  waveCounter : Half
  lines : Vector Line 4
  epoch : Epoch
  trunk : Trunk
  events : Events
  deriving DecidableEq, Repr

/-- No command of the 6120 stops the part: the spec names no fault. A malformed request is answered ERROR and one
that cannot be carried out REFUSED (R160), and a failure of a robot or a line is an outcome and an event (R173). So
this type has no constructor, and nobody raises it. -/
inductive Fault where
  deriving DecidableEq, Repr

/-- Why the model gives a command no meaning. -/
inductive Refusal where
  /-- The command has no meaning in this model yet. Raised by `exec`'s arm alone; safe: nothing is claimed of it.
  No arm raises it: every row of spec/opcode_table.json has its meaning. -/
  | notModelled (mnemonic : String)
  deriving DecidableEq, Repr

/-! ### Values after power-on reset -/

/-- The pair (0, 0). -/
def Pair.zero : Pair := ⟨0, 0⟩

/-- The zero position (R9). -/
def Position.zero : Position := ⟨Pair.zero, Pair.zero⟩

/-- The static fields of an absent record: every field zero (R1). -/
def RobotStatic.absent : RobotStatic :=
  { present := false, line := 0, drop := 0, enable := false, priority := false, hubCurve := 0, elbowCurve := 0,
    gearHub := 0, gearElbow := 0, coupling := 0, offHub := 0, offElbow := 0, hubMin := 0, hubMax := 0, elbowMin := 0,
    elbowMax := 0, fenceMode := .off, fs := 0, fe := 0, homeAngles := Pair.zero, homeSteps := Pair.zero, links := [] }

/-- A robot record after power-on reset (R18). -/
def Robot.reset : Robot :=
  { static := RobotStatic.absent, slot := .absent, believed := Position.zero, reported := Pair.zero,
    reportedValid := false, fault := 0, stack := [], lastOutcome := .none, lastReason := .none, rest := .uncertain }

/-- A profile after power-on reset (R24). -/
def Profile.reset : Profile := { vHub := 100, vElbow := 100, nMin := 20, grace := 500, homeLimit := 60000 }

/-- A zone entry after power-on reset (R61). -/
def Zone.reset : Zone := { memberA := none, memberB := none, holder := .free, joinedA := false, joinedB := false }

/-- The default line timing record (R137). -/
def Timing.reset : Timing :=
  { tCall := 300, tBody := 2000, tShort := 300, tRead := 1500, tTurn := 0, tGap := 40, nCall := 4, nBody := 3,
    pollPeriod := 50, downLimit := 8 }

/-- A line after power-on reset (R140). DESIGN CHOICE (log entry 9): the quiet time counts from the release of reset. -/
def Line.reset : Line :=
  { state := .idle, txn := none, residue := none, urgent := [], normal := [], cycle := [], haltPending := false,
    goPending := none, silence := 0, counters := ⟨0, 0, 0, 0⟩, timing := Timing.reset, lastChar := 0 }

/-- The timebase after power-on reset (R153). -/
def Epoch.reset : Epoch :=
  { mode := .free, period := 100000, window := 2000, running := 100000, tLast := 0, counter := 0, lock := .none,
    offset := 0 }

/-- The trunk port after power-on reset (R172). -/
def Trunk.reset : Trunk := { rx := .hunt, queue := [], disp := .waiting, badCheck := 0, overrun := 0, gapAbandoned := 0 }

/-- The record of a class that is not pending (R173). -/
def EventRec.empty : EventRec := ⟨0, 0, 0⟩

/-- The Event Unit after either reset (R181). -/
def Events.reset : Events := { recs := Vector.replicate 11 EventRec.empty, masks := ⟨false, false, false, false⟩ }

/-- The part right after power-on reset, at the release of RESET_N (R172). -/
def State.reset : State :=
  { pending := [], resetLow := false, timer := 0,
    robots := Vector.replicate 480 Robot.reset,
    curves := Vector.replicate 256 (Vector.replicate 17 0),
    profiles := Vector.replicate 16 Profile.reset,
    zones := Vector.replicate 1024 Zone.reset,
    openWave := [], deferred := [], wave := none, waveCounter := 0,
    lines := Vector.replicate 4 Line.reset,
    epoch := Epoch.reset, trunk := Trunk.reset, events := Events.reset }

end Sys2Proof.Machine
end

