-- ==== Sys2Proof/Machine/Ops.lean ====
section
/-!
DEFINITION. The named operations over the state: tables of fixed size, robot records, lines, members of the wave,
the timer, and the step wrapper for commands of a running part.
-/

namespace Sys2Proof.Machine

/-! ### Tables of fixed size -/

/-- `f` applied to each element with its index, counted from `i`. -/
def mapFrom {α β : Type} (f : Nat → α → β) : Nat → List α → List β
  | _, [] => []
  | i, a :: as => f i a :: mapFrom f (i + 1) as

theorem mapFrom_length {α β : Type} (f : Nat → α → β) (i : Nat) (l : List α) : (mapFrom f i l).length = l.length := by
  induction l generalizing i with
  | nil => rfl
  | cons a as ih => simp [mapFrom, ih]

/-- A table with `f` applied to each entry with its index. -/
def mapTable {α β : Type} {n : Nat} (f : Nat → α → β) (v : Vector α n) : Vector β n :=
  ⟨⟨mapFrom f 0 v.toList⟩, by simp [mapFrom_length]⟩

/-- The indices, in increasing order and counted from `i`, of the elements that satisfy `p`. -/
def indicesFrom {α : Type} (p : Nat → α → Bool) : Nat → List α → List Nat
  | _, [] => []
  | i, a :: as => if p i a then i :: indicesFrom p (i + 1) as else indicesFrom p (i + 1) as

/-- A number as an index of a table of `n` entries, if it is one. -/
def index? (n : Nat) (i : Nat) : Option (Fin n) := if h : i < n then some ⟨i, h⟩ else none

/-- A 16-bit count that stops at 65 535 rather than wrapping (R138, R158). -/
def countUp (c : Half) : Half := if c.toNat = 65535 then c else c + 1

/-! ### Robot records -/

/-- The record of robot `r`. -/
def State.robot (s : State) (r : RobotNo) : Robot := s.robots[r]

/-- Write the record of robot `r`. -/
def State.setRobot (s : State) (r : RobotNo) (b : Robot) : State := { s with robots := s.robots.set r b }

/-- Change the record of robot `r`. -/
def State.modRobot (s : State) (r : RobotNo) (f : Robot → Robot) : State := s.setRobot r (f (s.robot r))

/-- Write a robot's slot state. -/
def State.setSlot (s : State) (r : RobotNo) (x : SlotState) : State := s.modRobot r fun b => { b with slot := x }

/-- Write a robot's last outcome and last reason (R10). -/
def State.setLast (s : State) (r : RobotNo) (o : Ending) (why : Reason) : State :=
  s.modRobot r fun b => { b with lastOutcome := o, lastReason := why }

/-- Store a robot's fault code (R10). -/
def State.setFaultCode (s : State) (r : RobotNo) (f : Byte) : State := s.modRobot r fun b => { b with fault := f }

/-- A wave state of a robot (R50): ARMING, ARMED, MOVING or STOPPING. -/
def SlotState.inWave : SlotState → Bool
  | .absent => false
  | .uncertain => false
  | .idle => false
  | .arming => true
  | .armed => true
  | .moving => true
  | .stopping => true

/-! ### Lines -/

/-- The engine and line `l`. -/
def State.line (s : State) (l : LineNo) : Line := s.lines[l]

/-- Write line `l`. -/
def State.setLine (s : State) (l : LineNo) (e : Line) : State := { s with lines := s.lines.set l e }

/-- Change line `l`. -/
def State.modLine (s : State) (l : LineNo) (f : Line → Line) : State := s.setLine l (f (s.line l))

/-- Change every line. -/
def State.modLines (s : State) (f : Line → Line) : State := { s with lines := mapTable (fun _ e => f e) s.lines }

/-- The line of robot `r`, as its record holds it (R2). -/
def State.lineOf (s : State) (r : RobotNo) : LineNo := (s.robot r).static.line

/-! ### Zones -/

/-- Zone entry `z`. -/
def State.zone (s : State) (z : ZoneId) : Zone := s.zones[z]

/-- Write zone entry `z`. -/
def State.setZone (s : State) (z : ZoneId) (e : Zone) : State := { s with zones := s.zones.set z e }

/-! ### Members of the wave -/

/-- A member whose outcome is undecided (R74). -/
def Member.undecided (m : Member) : Bool := m.outcome = .none

/-- The members of a wave record whose outcome is undecided. -/
def Wave.undecidedMembers (w : Wave) : List Member := w.members.filter Member.undecided

/-- The undecided count of a wave: the number of members whose outcome is undecided (R74). -/
def Wave.undecided (w : Wave) : Nat := w.undecidedMembers.length

/-- The members of the wave record held, none when there is no record. -/
def State.members (s : State) : List Member :=
  match s.wave with
  | none => []
  | some w => w.members

/-- The undecided members of the wave record held. -/
def State.undecidedMembers (s : State) : List Member := s.members.filter Member.undecided

/-- The undecided member of robot `r`, if it has one. -/
def State.member? (s : State) (r : RobotNo) : Option Member := s.undecidedMembers.find? fun m => m.robot = r

/-- Change the undecided member of robot `r`. A decided member is never written again (R74). -/
def State.modMember (s : State) (r : RobotNo) (f : Member → Member) : State :=
  match s.wave with
  | none => s
  | some w =>
    { s with wave := some { w with members := w.members.map fun m => if m.robot = r ∧ m.undecided = true then f m else m } }

/-- Change the wave record. -/
def State.modWave (s : State) (f : Wave → Wave) : State :=
  match s.wave with
  | none => s
  | some w => { s with wave := some (f w) }

/-- The wave record is in ARMING, ARMED, RUNNING or ABORTING: the active wave. -/
def WaveState.active : WaveState → Bool
  | .arming => true
  | .armed => true
  | .running => true
  | .aborting => true
  | .done => false

/-- The number of the wave in ARMING, ARMED, RUNNING or ABORTING, or 0 (R150). -/
def State.activeWaveNumber (s : State) : Half :=
  match s.wave with
  | none => 0
  | some w => if w.state.active then w.number else 0

/-! ### Time -/

/-- The timer at a later reading. A reading before the one held cannot come (log entry 4). -/
def State.clock (s : State) (t : Time) : State := { s with timer := if s.timer < t then t else s.timer }

/-- The timer's reading as a plain integer (R115). -/
def State.now (s : State) : Nat := s.timer.toNat

/-! ### A command of the running part -/

/-- What a command makes of the part: nothing while RESET_N is held low (R172, log entry 8), its effect otherwise. -/
def running (s : State) (f : State → State) : Host.Outcome State Fault Refusal := .next (if s.resetLow then s else f s)

end Sys2Proof.Machine
end

