-- ==== Sys2Proof/Machine/Operands.lean ====
section
/-!
DEFINITION. Operand forms: byte order, fields and codes of the formats (chapter 10), clamping, the frame check (R139),
trunk and line frames, and the reading of a request from its frame (R161).
-/

namespace Sys2Proof.Machine

/-! ### Bytes -/

/-- A two-byte field, low byte first. -/
def le16 (h : Half) : List Byte := [h.extractLsb' 0 8, h.extractLsb' 8 8]

/-- A four-byte field, low byte first. -/
def le32 (w : Word) : List Byte := [w.extractLsb' 0 8, w.extractLsb' 8 8, w.extractLsb' 16 8, w.extractLsb' 24 8]

/-- The byte at an offset. -/
def u8 (bs : List Byte) (o : Nat) : Byte := bs.getD o 0

/-- The two-byte field at an offset. -/
def u16 (bs : List Byte) (o : Nat) : Half := u8 bs (o + 1) ++ u8 bs o

/-- The four-byte field at an offset. -/
def u32 (bs : List Byte) (o : Nat) : Word := u16 bs (o + 2) ++ u16 bs o

/-- A count or code as one byte. -/
def byteOf (n : Nat) : Byte := BitVec.ofNat 8 n

/-- A count as a two-byte field. -/
def halfOf (n : Nat) : Half := BitVec.ofNat 16 n

/-- A boolean byte as sent: 1 for yes (R182). -/
def boolByte (b : Bool) : Byte := if b then 1 else 0

/-- A boolean byte as received: any value but 0 is yes (R182). -/
def readBool (b : Byte) : Bool := b ≠ 0

/-- Bit `i` of a flag byte (R182). -/
def flagBit (b : Byte) (i : Nat) : Bool := b.getLsbD i

/-- A pair, hub first, low byte first. -/
def pairBytes (p : Pair) : List Byte := le32 p.hub ++ le32 p.elbow

/-- A position: hub angle, elbow angle, hub steps, elbow steps (10.5). -/
def positionBytes (p : Position) : List Byte := pairBytes p.angles ++ pairBytes p.steps

/-! ### Clamping -/

/-- A value brought to the nearer end of a range. -/
def clampInt (lo hi x : Int) : Int := if x < lo then lo else if hi < x then hi else x

/-- An unsigned value brought to the nearer end of a range. -/
def clampNat (lo hi x : Nat) : Nat := if x < lo then lo else if hi < x then hi else x

/-- An unsigned two-byte field clamped. -/
def clampHalf (lo hi : Nat) (h : Half) : Half := halfOf (clampNat lo hi h.toNat)

/-- An unsigned byte clamped. -/
def clampByte (lo hi : Nat) (b : Byte) : Byte := byteOf (clampNat lo hi b.toNat)

/-- An unsigned four-byte field clamped. -/
def clampWord (lo hi : Nat) (w : Word) : Word := BitVec.ofNat 32 (clampNat lo hi w.toNat)

/-! ### Codes (10.6) -/

/-- Slot state code. -/
def SlotState.code : SlotState → Byte
  | .absent => 0 | .uncertain => 1 | .idle => 2 | .arming => 3 | .armed => 4 | .moving => 5 | .stopping => 6

/-- Rest state code: the slot state's. -/
def RestState.code : RestState → Byte
  | .uncertain => 1 | .idle => 2

/-- Fence mode code. -/
def FenceMode.code : FenceMode → Byte
  | .off => 0 | .inside => 1 | .outside => 2

/-- The fence mode of a code, if it is defined. -/
def fenceMode? (b : Byte) : Option FenceMode :=
  match b.toNat with
  | 0 => some .off
  | 1 => some .inside
  | 2 => some .outside
  | _ => none

/-- Outcome code. -/
def Ending.code : Ending → Byte
  | .none => 0 | .arrived => 1 | .null => 2 | .missed => 3 | .haltedAtStart => 4 | .haltedUnknown => 5
  | .stalled => 6 | .overrun => 7 | .lost => 8 | .withdrawn => 9 | .deferred => 10 | .dropped => 11 | .reset => 12

/-- Reason code. -/
def Reason.code : Reason → Byte
  | .none => 0 | .absent => 1 | .disabled => 2 | .lineDown => 3 | .uncertain => 5 | .empty => 6 | .fenced => 7
  | .long => 8 | .range => 9 | .zone => 10 | .expired => 11 | .overflow => 12 | .refused => 13 | .mismatch => 14
  | .lostSeg => 15 | .drift => 16 | .lineReset => 17 | .locked => 18 | .badAddr => 19 | .duplicate => 20
  | .badLimit => 21 | .badGear => 22 | .badLink => 23 | .badHome => 24 | .active => 25 | .noWave => 26
  | .notFound => 27 | .length => 32 | .kind => 33 | .dest => 34 | .index => 35

/-- Status code. -/
def Status.code : Status → Byte
  | .ok => 0 | .clamped => 1 | .queued => 2 | .refused => 3 | .error => 4

/-- Move kind code. -/
def MoveKind.code : MoveKind → Byte
  | .goto => 1 | .retrace => 2 | .home => 3

/-- Kind of a move record. -/
def MoveWhat.kind : MoveWhat → MoveKind
  | .goto _ => .goto
  | .retrace => .retrace
  | .home => .home

/-- Holder state code. -/
def Holder.code : Holder → Byte
  | .free => 0 | .moving _ => 1 | .parked _ => 2 | .blocked => 3

/-- The robot that holds a zone, for MOVING and PARKED. -/
def Holder.robot? : Holder → Option RobotNo
  | .free => none | .moving r => some r | .parked r => some r | .blocked => none

/-- Wave state code; NONE, the absent record, is 0. -/
def WaveState.code : WaveState → Byte
  | .arming => 1 | .armed => 2 | .running => 3 | .aborting => 4 | .done => 5

/-- Origin code. -/
def Origin.code : Origin → Byte
  | .request => 1 | .chain => 2

/-- Delivery state code. -/
def Delivery.code : Delivery → Byte
  | .listed => 1 | .inFlight => 2 | .accepted => 3 | .clearing => 4 | .closed => 5

/-- Line engine state code. -/
def EngineState.code : EngineState → Byte
  | .idle => 0 | .calling => 1 | .awaiting => 2 | .sending => 3 | .ending => 4 | .down => 5

/-- Epoch mode code. -/
def EpochMode.code : EpochMode → Byte
  | .free => 0 | .track => 1 | .once => 2

/-- The epoch mode of a code, if it is defined. -/
def epochMode? (b : Byte) : Option EpochMode :=
  match b.toNat with
  | 0 => some .free
  | 1 => some .track
  | 2 => some .once
  | _ => none

/-- Lock status code. -/
def LockStatus.code : LockStatus → Byte
  | .none => 0 | .aligned => 1 | .slipped => 2

/-- A robot number or none: FFFFh for none (R182). -/
def robotField (r : Option RobotNo) : Half :=
  match r with
  | none => 0xFFFF
  | some r => halfOf r.val

/-! ### The frame check (R139) -/

/-- One shift of the check register. -/
def crcShift (c : Half) : Half := if c.getLsbD 0 then (c >>> 1) ^^^ 0x8408 else c >>> 1

/-- One byte taken into the check register. -/
def crcByte (c : Half) (b : Byte) : Half :=
  crcShift (crcShift (crcShift (crcShift (crcShift (crcShift (crcShift (crcShift (c ^^^ b.setWidth 16))))))))

/-- The frame check of a sequence of bytes (R139). -/
def crc (bs : List Byte) : Half := bs.foldl crcByte 0xFFFF

/-! ### Trunk frames (10.2) -/

/-- The bytes of a request frame that its CRC covers: length, destination, kind and payload (R155). -/
def Frame.checked (f : Frame) : List Byte := le16 (halfOf f.payload.length) ++ le16 f.dest ++ [f.kind] ++ f.payload

/-- The bytes of a reply that its CRC covers (R160). -/
def Reply.checked (r : Reply) : List Byte :=
  le16 (halfOf r.payload.length) ++ le16 r.dest ++ [r.kind, r.status.code, r.attention] ++ r.payload

/-- A reply as sent (R160, R183). -/
def Reply.bytes (r : Reply) : List Byte := 0x5A :: (r.checked ++ le16 (crc r.checked))

/-! ### Line frames (10.7) -/

/-- The bytes of a line frame that its CRC covers (R139). -/
def LineFrame.checked (f : LineFrame) : List Byte := f.drop :: f.code :: byteOf f.payload.length :: f.payload

/-- A frame as the 6120 sends it on a line. -/
def LineFrame.bytes (f : LineFrame) : List Byte := 0xC3 :: (f.checked ++ le16 (crc f.checked))

/-- Direction byte of a segment body (10.7). -/
def directionByte (g : Segment) : Byte := (if g.hubNegative then 1 else 0) ||| (if g.elbowNegative then 2 else 0)

/-- Payload of a body frame: a segment body of 15 bytes, or a home body of 12 (10.7). -/
def Body.bytes : Body → List Byte
  | .segment g => directionByte g :: (le16 g.n ++ le32 g.xHub ++ le16 g.aHub ++ le32 g.xElbow ++ le16 g.aElbow)
  | .home p limit => pairBytes p ++ le32 limit

/-- Frame code of a body (10.7). -/
def Body.code : Body → Byte
  | .segment _ => 0x02
  | .home _ _ => 0x03

/-- A frame of an exchange as sent to a drop (R117, 10.7). The two broadcasts go to drop 127 (R129). -/
def FrameKind.frame (drop : Byte) : FrameKind → LineFrame
  | .call => ⟨drop, 0x01, []⟩
  | .body b => ⟨drop, b.code, b.bytes⟩
  | .readRequest => ⟨drop, 0x04, []⟩
  | .endFrame => ⟨drop, 0x05, []⟩
  | .clear => ⟨drop, 0x06, []⟩
  | .halt => ⟨drop, 0x07, []⟩
  | .poll => ⟨drop, 0x08, []⟩
  | .go g => ⟨Config.broadcastDrop, 0x09, le16 g.wave ++ [g.excluded]⟩
  | .haltAll => ⟨Config.broadcastDrop, 0x07, []⟩

/-- The frame a transaction is sending, if it is sending one. -/
def Txn.sending? (x : Txn) : Option LineFrame :=
  match x.phase with
  | .gap _ _ => none
  | .sending f => some (f.frame x.drop)
  | .waiting _ _ => none
  | .receiving _ _ => none

/-- The frame going out on a line: that of the transaction in flight, or of an abandoned one (R136). -/
def Line.wireFrame (e : Line) : Option LineFrame :=
  match e.residue with
  | some ρ => ρ.txn.sending?
  | none =>
    match e.txn with
    | some x => x.sending?
    | none => none

/-- A line's driver enable output: asserted while a frame goes out (R116), released while RESET_N is low (R172). -/
def driverEnable (s : State) (l : LineNo) : Bool := !s.resetLow && (s.line l).wireFrame.isSome

/-- Payload size of an answer's code, if it is an answer code (10.7). -/
def answerSize (code : Byte) : Option Nat :=
  match code.toNat with
  | 0x81 => some 0
  | 0x82 => some 0
  | 0x83 => some 0
  | 0x84 => some 0
  | 0x85 => some 1
  | 0x86 => some 7
  | 0x87 => some 13
  | _ => none

/-- The answer of a code and a payload of that code's size (10.7). -/
def answerOf (code : Byte) (p : List Byte) : Option Answer :=
  match code.toNat with
  | 0x81 => some .ready
  | 0x82 => some .notReady
  | 0x83 => some .accept
  | 0x84 => some .retry
  | 0x85 => some (.refuse (u8 p 0))
  | 0x86 => some (.poll (u8 p 0) (u8 p 1) (u8 p 2) (u16 p 3) (u16 p 5))
  | 0x87 => some (.status (u8 p 0) (u8 p 1) (u8 p 2) (u16 p 3) (u32 p 5) (u32 p 9))
  | _ => none

/-- The answer that received bytes hold, from the start character on, for a frame sent to `drop`: none when they fail
a condition of R132 or R185 that does not depend on the frame they answer. -/
def readAnswer (drop : Byte) (bs : List Byte) : Option Answer :=
  match bs with
  | start :: d :: code :: len :: rest =>
    if start = 0x3C ∧ d = drop ∧ len.toNat ≤ 32 ∧ rest.length = len.toNat + 2 ∧ answerSize code = some len.toNat ∧
        u16 rest len.toNat = crc (d :: code :: len :: rest.take len.toNat) then
      answerOf code (rest.take len.toNat)
    else none
  | _ => none

/-- Code of an answer (10.7). -/
def Answer.code : Answer → Byte
  | .ready => 0x81
  | .notReady => 0x82
  | .accept => 0x83
  | .retry => 0x84
  | .refuse _ => 0x85
  | .poll _ _ _ _ _ => 0x86
  | .status _ _ _ _ _ _ => 0x87

/-- Payload of an answer (10.7). -/
def Answer.payload : Answer → List Byte
  | .ready => []
  | .notReady => []
  | .accept => []
  | .retry => []
  | .refuse f => [f]
  | .poll c p f w n => [c, p, f] ++ le16 w ++ le16 n
  | .status c p f w h e => [c, p, f] ++ le16 w ++ le32 h ++ le32 e

/-- An answer as a robot at `drop` sends it (10.7). -/
def Answer.bytes (drop : Byte) (a : Answer) : List Byte :=
  let body := drop :: a.code :: byteOf a.payload.length :: a.payload
  0x3C :: (body ++ le16 (crc body))

/-! ### Requests (10.3) -/

/-- A request that has passed the checks of R161. -/
inductive Request where
  | move (r : RobotNo) (hub elbow : Word) (profile : Byte)
  | retrace (r : RobotNo) (profile : Byte)
  | home (r : RobotNo) (profile : Byte)
  | cancel (r : RobotNo)
  | halt (r : RobotNo)
  | refresh (r : RobotNo)
  | report (r : RobotNo)
  | load (table : Byte) (first count : Half) (records : List Byte)
  | read (table : Byte) (first count : Half)
  | flags (first last : Half) (op mask : Byte)
  | commit (lead chainCount chainLead : Byte)
  | abort
  | take
  | mask (fault timing flow link : Byte)
  | status
  | lineReset (lines : Byte)
  | reset
  deriving DecidableEq, Repr

/-- A robot-addressed request of a fixed payload length (R161). -/
def robotRequest (f : Frame) (len : Nat) (q : RobotNo → Request) : Except Reason Request :=
  match index? 480 f.dest.toNat with
  | none => .error .dest
  | some r => if f.payload.length = len then .ok (q r) else .error .length

/-- A controller-addressed request (R161). -/
def controllerRequest (f : Frame) (fits : Bool) (q : Request) : Except Reason Request :=
  if f.dest = 0xFFFF then if fits then .ok q else .error .length else .error .dest

/-- The checks of R161 in their order, and the request of a frame that passes them. -/
def parseRequest (f : Frame) : Except Reason Request :=
  let p := f.payload
  match f.kind.toNat with
  | 1 => robotRequest f 9 fun r => .move r (u32 p 0) (u32 p 4) (u8 p 8)
  | 2 => robotRequest f 1 fun r => .retrace r (u8 p 0)
  | 3 => robotRequest f 1 fun r => .home r (u8 p 0)
  | 4 => robotRequest f 0 .cancel
  | 5 => robotRequest f 0 .halt
  | 6 => robotRequest f 0 .refresh
  | 7 => robotRequest f 0 .report
  | 16 => controllerRequest f (5 ≤ p.length) (.load (u8 p 0) (u16 p 1) (u16 p 3) (p.drop 5))
  | 17 => controllerRequest f (p.length = 5) (.read (u8 p 0) (u16 p 1) (u16 p 3))
  | 18 => controllerRequest f (p.length = 6) (.flags (u16 p 0) (u16 p 2) (u8 p 4) (u8 p 5))
  | 19 => controllerRequest f (p.length = 3) (.commit (u8 p 0) (u8 p 1) (u8 p 2))
  | 20 => controllerRequest f (p.length = 0) .abort
  | 21 => controllerRequest f (p.length = 0) .take
  | 22 => controllerRequest f (p.length = 4) (.mask (u8 p 0) (u8 p 1) (u8 p 2) (u8 p 3))
  | 23 => controllerRequest f (p.length = 0) .status
  | 24 => controllerRequest f (p.length = 1) (.lineReset (u8 p 0))
  | 25 => controllerRequest f (p.length = 0) .reset
  | _ => .error .kind

/-! ### The frames of the request commands (10.3) -/

/-- Frame of a MOVE. -/
def moveFrame (dest : Half) (hub elbow : Word) (profile : Byte) : Frame := ⟨dest, 1, le32 hub ++ le32 elbow ++ [profile]⟩
/-- Frame of a RETRACE. -/
def retraceFrame (dest : Half) (profile : Byte) : Frame := ⟨dest, 2, [profile]⟩
/-- Frame of a HOME. -/
def homeFrame (dest : Half) (profile : Byte) : Frame := ⟨dest, 3, [profile]⟩
/-- Frame of a request that carries nothing. -/
def bareFrame (dest : Half) (kind : Byte) : Frame := ⟨dest, kind, []⟩
/-- Frame of a LOAD of a table kind. -/
def loadFrame (dest : Half) (table : Byte) (first count : Half) (records : List Byte) : Frame :=
  ⟨dest, 16, table :: (le16 first ++ le16 count ++ records)⟩
/-- Frame of a READ of a table kind. -/
def readFrame (dest : Half) (table : Byte) (first count : Half) : Frame := ⟨dest, 17, table :: (le16 first ++ le16 count)⟩
/-- Frame of a FLAGS with an operation code. -/
def flagsFrame (dest first last : Half) (op mask : Byte) : Frame := ⟨dest, 18, le16 first ++ le16 last ++ [op, mask]⟩
/-- Frame of a COMMIT. -/
def commitFrame (dest : Half) (lead chainCount chainLead : Byte) : Frame := ⟨dest, 19, [lead, chainCount, chainLead]⟩
/-- Frame of a MASK. -/
def maskFrame (dest : Half) (fault timing flow link : Byte) : Frame := ⟨dest, 22, [fault, timing, flow, link]⟩
/-- Frame of a LINE_RESET. -/
def lineResetFrame (dest : Half) (lines : Byte) : Frame := ⟨dest, 24, [lines]⟩

end Sys2Proof.Machine
end

