-- ==== Sys2Proof/Machine/Flags.lean ====
section
/-!
DEFINITION. Flags: the flag bytes of replies and records, and the Event Unit: raising a class (R174), the attention
value and ATTN (R175, R176), masks (R177), taking a class (R179).
-/

namespace Sys2Proof.Machine

/-! ### Flag bytes -/

/-- The flag byte of a move reply: bit 0 hub clamped, bit 1 elbow clamped, bit 2 REPLACED (10.3). -/
def replyFlags (hub elbow replaced : Bool) : Byte :=
  (if hub then 1 else 0) ||| (if elbow then 2 else 0) ||| (if replaced then 4 else 0)

/-- The flag byte of a robot record: bit 0 ENABLE, bit 1 PRIORITY (10.4). -/
def recordFlags (b : RobotStatic) : Byte := (if b.enable then 1 else 0) ||| (if b.priority then 2 else 0)

/-- The broadcast flag byte of a line block: bit 0 HALT broadcast pending, bit 1 GO pending (10.5). -/
def broadcastFlags (e : Line) : Byte := (if e.haltPending then 1 else 0) ||| (if e.goPending.isSome then 2 else 0)

/-- The mask byte of the status record: bit 0 FAULT to bit 3 LINK (10.5). -/
def maskByte (m : Masks) : Byte :=
  (if m.fault then 1 else 0) ||| (if m.timing then 2 else 0) ||| (if m.flow then 4 else 0) ||| (if m.link then 8 else 0)

/-! ### Event classes (R173) -/

/-- Index of a class's record: its priority less one. -/
def EventClass.idx : EventClass → Fin 11
  | .lineDown => 0 | .zoneConflict => 1 | .stall => 2 | .lost => 3 | .overrun => 4 | .epochSlip => 5
  | .waveLate => 6 | .chainStuck => 7 | .deferDrop => 8 | .waveDone => 9 | .trunkError => 10

/-- Priority and code of a class. -/
def EventClass.code (c : EventClass) : Byte := byteOf (c.idx.val + 1)

/-- Mask group of a class. -/
def EventClass.group : EventClass → Group
  | .lineDown => .fault | .zoneConflict => .fault | .stall => .fault | .lost => .fault | .overrun => .fault
  | .epochSlip => .timing | .waveLate => .timing
  | .chainStuck => .flow | .deferDrop => .flow | .waveDone => .flow
  | .trunkError => .link

/-- The classes in order of priority, highest first. -/
def EventClass.byPriority : List EventClass :=
  [.lineDown, .zoneConflict, .stall, .lost, .overrun, .epochSlip, .waveLate, .chainStuck, .deferDrop, .waveDone,
    .trunkError]

/-- Whether a group is masked. -/
def Masks.masked (m : Masks) : Group → Bool
  | .fault => m.fault
  | .timing => m.timing
  | .flow => m.flow
  | .link => m.link

/-- The record of a class. -/
def Events.get (e : Events) (c : EventClass) : EventRec := e.recs[c.idx]

/-- Write the record of a class. -/
def Events.put (e : Events) (c : EventClass) (x : EventRec) : Events := { e with recs := e.recs.set c.idx x }

/-- A class record after a raise with a detail (R174). -/
def EventRec.raised (x : EventRec) (detail : Half) : EventRec :=
  if x.count = 0 then ⟨1, detail, detail⟩
  else if x.count = 255 then { x with last := detail }
  else { x with count := x.count + 1, last := detail }

/-- Raise a class with a detail (R174). -/
def State.raise (s : State) (c : EventClass) (detail : Half) : State :=
  { s with events := s.events.put c ((s.events.get c).raised detail) }

/-- A class takes part in the attention value: it is pending and its group is unmasked (R175). -/
def Events.eligible (e : Events) (c : EventClass) : Bool := (e.get c).count ≠ 0 && !e.masks.masked c.group

/-- The class that is the attention value, if there is one: the eligible class of highest priority (R175). -/
def Events.attention? (e : Events) : Option EventClass := EventClass.byPriority.find? e.eligible

/-- The attention value (R175). -/
def Events.attention (e : Events) : Byte :=
  match e.attention? with
  | none => 0
  | some c => c.code

/-- The ATTN output (R176), deasserted while RESET_N is low (R172). -/
def attnOutput (s : State) : Bool := !s.resetLow && s.events.attention ≠ 0

/-- Detail of a TRUNK_ERROR for a frame discarded for its CRC or length field: BADCHECK (R183). -/
def badCheckDetail : Half := 1

/-- Detail of a TRUNK_ERROR for a frame discarded at a full queue: OVERRUN (R183). -/
def overrunDetail : Half := 2

end Sys2Proof.Machine
end

