-- ==== Sys2Proof/Machine/Work.lean ====
section
/-!
DEFINITION. Work waiting for a line: the urgent list (R119), the normal list (R120), the broadcast flags (R121) and the
poll cycle (R95). Work offered to a DOWN line is discarded (R123).
-/

namespace Sys2Proof.Machine

/-! ### The urgent list (R119) -/

/-- An urgent list after a HALT single is offered: a listed HALT single or CLEAR stands, otherwise it is appended. -/
def offerHaltTo (u : List UrgentEntry) (r : RobotNo) : List UrgentEntry :=
  if u.any fun x => x.robot = r then u else u ++ [⟨r, .halt⟩]

/-- An urgent list after a CLEAR is offered: a listed CLEAR stands, a HALT single is replaced in its place, otherwise
the CLEAR is appended. -/
def offerClearTo (u : List UrgentEntry) (r : RobotNo) : List UrgentEntry :=
  if u.any fun x => x.robot = r then u.map fun x => if x.robot = r then ⟨r, .clear⟩ else x else u ++ [⟨r, .clear⟩]

/-- Offer a HALT single for robot `r` to its line. -/
def State.offerHalt (s : State) (r : RobotNo) : State :=
  s.modLine (s.lineOf r) fun e => if e.state = .down then e else { e with urgent := offerHaltTo e.urgent r }

/-- Offer a CLEAR for robot `r` to its line. -/
def State.offerClear (s : State) (r : RobotNo) : State :=
  s.modLine (s.lineOf r) fun e => if e.state = .down then e else { e with urgent := offerClearTo e.urgent r }

/-! ### The normal list (R120) -/

/-- An entry holds a READ. -/
def NormalEntry.hasRead (x : NormalEntry) : Bool := x.refresh || x.readBack

/-- An entry still holds work. -/
def NormalEntry.live (x : NormalEntry) : Bool := x.deliver || x.hasRead

/-- A normal list after a READ is offered: merged with a listed READ, joined to a listed DELIVER, otherwise appended. -/
def offerReadTo (n : List NormalEntry) (r : RobotNo) (refresh readBack : Bool) : List NormalEntry :=
  if n.any fun x => x.robot = r then
    n.map fun x =>
      if x.robot = r then { x with refresh := x.refresh || refresh, readBack := x.readBack || readBack } else x
  else n ++ [⟨r, false, refresh, readBack⟩]

/-- A normal list after a DELIVER is offered: a listed READ leaves its place and is joined to the new entry at the
tail. -/
def offerDeliverTo (n : List NormalEntry) (r : RobotNo) : List NormalEntry :=
  (n.filter fun x => x.robot ≠ r) ++
    [⟨r, true, n.any fun x => decide (x.robot = r) && x.refresh, n.any fun x => decide (x.robot = r) && x.readBack⟩]

/-- A normal list without robot `r`'s DELIVER; a READ joined to it stays in the entry's place. -/
def dropDeliver (n : List NormalEntry) (r : RobotNo) : List NormalEntry :=
  (n.map fun x => if x.robot = r then { x with deliver := false } else x).filter NormalEntry.live

/-- A normal list without the READ of any robot that satisfies `p`; a DELIVER it is joined to stays in its place. -/
def dropReads (n : List NormalEntry) (p : RobotNo → Bool) : List NormalEntry :=
  (n.map fun x => if p x.robot then { x with refresh := false, readBack := false } else x).filter NormalEntry.live

/-- Offer a READ for robot `r` to its line, for a REFRESH or for a read-back. -/
def State.offerRead (s : State) (r : RobotNo) (refresh readBack : Bool) : State :=
  s.modLine (s.lineOf r) fun e =>
    if e.state = .down then e else { e with normal := offerReadTo e.normal r refresh readBack }

/-- Offer a DELIVER for robot `r` to its line. -/
def State.offerDeliver (s : State) (r : RobotNo) : State :=
  s.modLine (s.lineOf r) fun e => if e.state = .down then e else { e with normal := offerDeliverTo e.normal r }

/-- Remove robot `r`'s DELIVER from its line's normal list (R81, R87). -/
def State.removeDeliver (s : State) (r : RobotNo) : State :=
  s.modLine (s.lineOf r) fun e => { e with normal := dropDeliver e.normal r }

/-- Remove robot `r`'s READ from its line's normal list (R88; log entry 13). -/
def State.removeRead (s : State) (r : RobotNo) : State :=
  s.modLine (s.lineOf r) fun e => { e with normal := dropReads e.normal fun x => decide (x = r) }

/-! ### Broadcast flags (R121) -/

/-- Set the HALT broadcast flag of a line; setting it again merges. -/
def State.offerHaltAll (s : State) (l : LineNo) : State :=
  s.modLine l fun e => if e.state = .down then e else { e with haltPending := true }

/-- Set the GO flag of a line. -/
def State.offerGo (s : State) (l : LineNo) (g : GoFlag) : State :=
  s.modLine l fun e => if e.state = .down then e else { e with goPending := some g }

/-! ### The poll cycle (R95) -/

/-- Put robot `r` in line `l`'s poll cycle with its first due time. Members join in the order of the wave's member list,
which is the order that breaks ties between due times (R122). -/
def State.joinCycle (s : State) (l : LineNo) (r : RobotNo) (due : Nat) : State :=
  s.modLine l fun e =>
    if e.state = .down then e else { e with cycle := (e.cycle.filter fun p => p.robot ≠ r) ++ [⟨r, due⟩] }

/-- Set the next due time of robot `r` in line `l`'s poll cycle. -/
def State.nextPoll (s : State) (l : LineNo) (r : RobotNo) (due : Nat) : State :=
  s.modLine l fun e => { e with cycle := e.cycle.map fun p => if p.robot = r then { p with due := due } else p }

/-- Take robot `r` out of its line's poll cycle. -/
def State.leaveCycle (s : State) (r : RobotNo) : State :=
  s.modLine (s.lineOf r) fun e => { e with cycle := e.cycle.filter fun p => p.robot ≠ r }

/-- Take robot `r` out of every list of its line: the urgent list, the normal list and the poll cycle (R106, log entry
12). -/
def State.leaveLists (s : State) (r : RobotNo) : State :=
  s.modLine (s.lineOf r) fun e =>
    { e with
      urgent := e.urgent.filter fun x => x.robot ≠ r
      normal := e.normal.filter fun x => x.robot ≠ r
      cycle := e.cycle.filter fun p => p.robot ≠ r }

/-- The poll to take at a time: the entry due earliest among those whose due time has passed, the earlier one in the
cycle on a tie (R122). -/
def duePoll (now : Nat) : List PollEntry → Option PollEntry
  | [] => none
  | p :: ps =>
    match duePoll now ps with
    | none => if p.due ≤ now then some p else none
    | some q => if p.due ≤ now ∧ p.due ≤ q.due then some p else some q

end Sys2Proof.Machine
end

