-- ==== Sys2Proof/Machine/Planner.lean ====
section
/-!
DEFINITION. The Move Planner: the forbidden set of a fence (R3), the clamping, correction and gearing of a target at
arrival (R26 to R29), and the plan of a candidate at commit (R34 to R39). Every product and sum is formed exactly, over
the integers, before it is rounded.
-/

namespace Sys2Proof.Machine

/-! ### Hub sets -/

/-- Hub angle `h` lies in the set from `a` to `b`, wrapped when `b < a` (R3, R4, R45). -/
def inHubSet (a b h : Int) : Bool := if a ≤ b then a ≤ h ∧ h ≤ b else h ≤ b ∨ a ≤ h

/-- The hub interval from `lo` to `hi` overlaps the set from `a` to `b` (R45). -/
def overlapsHubSet (a b lo hi : Int) : Bool := if a ≤ b then lo ≤ b ∧ a ≤ hi else lo ≤ b ∨ a ≤ hi

/-- Hub angle `h` lies in a robot's forbidden set (R3). -/
def forbidden (b : RobotStatic) (h : Int) : Bool :=
  match b.fenceMode with
  | .off => false
  | .inside => inHubSet b.fs.toInt b.fe.toInt h
  | .outside => Config.hubLow ≤ h ∧ h ≤ Config.hubHigh ∧ inHubSet b.fs.toInt b.fe.toInt h = false

/-- The hub sweep from `lo` to `hi` meets a robot's forbidden set, by the table of R35. -/
def sweepForbidden (b : RobotStatic) (lo hi : Int) : Bool :=
  let fs := b.fs.toInt
  let fe := b.fe.toInt
  match b.fenceMode with
  | .off => false
  | .inside => if fs ≤ fe then lo ≤ fe ∧ fs ≤ hi else lo ≤ fe ∨ fs ≤ hi
  | .outside => if fs ≤ fe then lo < fs ∨ fe < hi else lo ≤ fs - 1 ∧ fe + 1 ≤ hi ∧ fe + 1 ≤ fs - 1

/-! ### Correction and gearing at arrival -/

/-- Knot `k` of a curve, in mdeg (R21). -/
def Curve.knot (c : Curve) (k : Nat) : Int := (c.toList.getD k 0).toInt

/-- The correction of angle `θ` on the axis with lowest angle `lo` and knot spacing `spacing` (R28). The division of
the interpolated term is rounded toward zero. -/
def correction (c : Curve) (lo spacing θ : Int) : Int :=
  let q := (θ - lo) / spacing
  let k := if q = 16 then 15 else q
  let r := θ - lo - k * spacing
  c.knot k.toNat + ((c.knot (k.toNat + 1) - c.knot k.toNat) * r).tdiv spacing

/-- `v` divided by 65 536 and rounded to the nearest integer, ties away from zero (R29). -/
def roundUnit (v : Int) : Int :=
  if 0 ≤ v then (2 * v + Config.unit) / (2 * Config.unit) else -((2 * -v + Config.unit) / (2 * Config.unit))

/-- A value lies in the signed 32-bit range (R29). -/
def inWord (x : Int) : Bool := -2147483648 ≤ x ∧ x ≤ 2147483647

/-- The corrected hub target (R28). -/
def correctedHub (c : Curve) (θ : Int) : Int := θ + correction c Config.hubLow Config.hubSpacing θ

/-- The corrected elbow target (R28). -/
def correctedElbow (c : Curve) (θ : Int) : Int := θ + correction c Config.elbowLow Config.elbowSpacing θ

/-- The hub target steps of a corrected hub target (R29). -/
def hubSteps (b : RobotStatic) (hub : Int) : Int := b.offHub.toInt + roundUnit (b.gearHub.toNat * hub)

/-- The elbow target steps of the corrected targets (R29). -/
def elbowSteps (b : RobotStatic) (hub elbow : Int) : Int :=
  b.offElbow.toInt + roundUnit (b.gearElbow.toNat * elbow + b.coupling.toInt * hub)

/-- Curve of a number. -/
def State.curve (s : State) (n : Byte) : Curve := s.curves[n.toNat]

/-- Profile of a number. -/
def State.profile (s : State) (p : ProfileNo) : Profile := s.profiles[p]

/-- The requested target clamped to the robot's soft limits (R26). -/
def clampTarget (b : RobotStatic) (hub elbow : Word) : Pair :=
  ⟨BitVec.ofInt 32 (clampInt b.hubMin.toInt b.hubMax.toInt hub.toInt),
    BitVec.ofInt 32 (clampInt b.elbowMin.toInt b.elbowMax.toInt elbow.toInt)⟩

/-- The target steps, exact, of clamped target angles (R28, R29). -/
def targetSteps (s : State) (b : RobotStatic) (angles : Pair) : Int × Int :=
  let hub := correctedHub (s.curve b.hubCurve) angles.hub.toInt
  let elbow := correctedElbow (s.curve b.elbowCurve) angles.elbow.toInt
  (hubSteps b hub, elbowSteps b hub elbow)

/-- The target of a MOVE as R25 tests it: the GOTO target, or the reason it is refused, FENCED before RANGE. -/
def calibrate (s : State) (b : RobotStatic) (hub elbow : Word) : Except Reason GotoTarget :=
  let angles := clampTarget b hub elbow
  let p := targetSteps s b angles
  if forbidden b angles.hub.toInt then .error .fenced
  else if inWord p.1 && inWord p.2 then
    .ok { angles := angles, steps := ⟨BitVec.ofInt 32 p.1, BitVec.ofInt 32 p.2⟩,
          hubClamped := angles.hub ≠ hub, elbowClamped := angles.elbow ≠ elbow }
  else .error .range

/-! ### The plan at commit -/

/-- `a` divided by `b`, rounded up. -/
def ceilDiv (a b : Nat) : Nat := (a + b - 1) / b

/-- The duration of a move with deltas `dh`, `de` (R37). -/
def duration (p : Profile) (dh de : Int) : Nat :=
  max (ceilDiv dh.natAbs p.vHub.toNat) (max (ceilDiv de.natAbs p.vElbow.toNat) p.nMin.toNat)

/-- The increment X of an axis (R38). -/
def increment (d : Int) (n : Nat) : Nat := d.natAbs * 65536 / n

/-- The remainder term A of an axis (R38). -/
def remainderTerm (d : Int) (n : Nat) : Nat := d.natAbs * 65536 - n * increment d n

/-- The segment of a move with deltas `dh`, `de` and duration `n` (R38). -/
def segmentOf (dh de : Int) (n : Nat) : Segment :=
  { hubNegative := dh < 0, elbowNegative := de < 0, n := halfOf n,
    xHub := BitVec.ofNat 32 (increment dh n), aHub := halfOf (remainderTerm dh n),
    xElbow := BitVec.ofNat 32 (increment de n), aElbow := halfOf (remainderTerm de n) }

/-- The Move Planner's answer for a candidate (2.4). -/
inductive PlanResult where
  | plan (p : Plan)
  | fenced
  | long
  | null
  deriving DecidableEq, Repr

/-- The plan of a GOTO or RETRACE from a start to a target: fence sweep (R35), zero move (R36), duration (R37) and
increments (R38). -/
def planMove (b : RobotStatic) (p : Profile) (start target : Position) : PlanResult :=
  let dh := target.steps.hub.toInt - start.steps.hub.toInt
  let de := target.steps.elbow.toInt - start.steps.elbow.toInt
  let lo := min start.angles.hub.toInt target.angles.hub.toInt
  let hi := max start.angles.hub.toInt target.angles.hub.toInt
  let n := duration p dh de
  if sweepForbidden b lo hi then .fenced
  else if dh = 0 ∧ de = 0 then .null
  else if Config.longestMove < n then .long
  else .plan { start := some start, target := target, body := .segment (segmentOf dh de n) }

/-- The plan of a HOME (R39): its start is the believed position from IDLE and absent from UNCERTAIN (R34). -/
def planHome (b : Robot) (p : Profile) : Plan :=
  { start := if b.slot = .uncertain then none else some b.believed,
    target := ⟨b.static.homeAngles, b.static.homeSteps⟩,
    body := .home b.static.homeSteps p.homeLimit }

/-- The plan of a candidate from its record and the robot and profile as held at the commit (R34). A RETRACE has the
top stack entry as its target; a commit drops a RETRACE with an empty stack before it asks for a plan (R70). -/
def planCandidate (s : State) (m : MoveRecord) : PlanResult :=
  let b := s.robot m.robot
  let p := s.profile m.profile
  match m.what with
  | .goto g => planMove b.static p b.believed ⟨g.angles, g.steps⟩
  | .retrace => planMove b.static p b.believed (b.stack.headD b.believed)
  | .home => .plan (planHome b p)

/-- Duration of a plan, 0 for a HOME (R89). -/
def Plan.n (p : Plan) : Half :=
  match p.body with
  | .segment g => g.n
  | .home _ _ => 0

end Sys2Proof.Machine
end

