-- ==== Sys2Proof/Machine/Zones.lean ====
section
/-!
DEFINITION. The Zone Table: intrusion (R46), the swept test (R47), needed zones (R48, R49), presence (R50), settlement
(R51 to R54) and the take at commit (R56).
-/

namespace Sys2Proof.Machine

/-! ### Geometry -/

/-- Hub angle `h` lies in a link's window (R45). -/
def Link.inWindow (k : Link) (h : Int) : Bool := overlapsHubSet k.ws.toInt k.we.toInt h h

/-- A robot at angles `a` intrudes the zone of link `k` (R46). -/
def Link.intrudedAt (k : Link) (a : Pair) : Bool := k.inWindow a.hub.toInt && decide (k.thr.toInt ≤ a.elbow.toInt)

/-- The third condition of the swept test (R47): the hub sweep overlaps the window and the larger elbow end reaches
the threshold. -/
def Link.sweptBy (k : Link) (a b : Pair) : Bool :=
  overlapsHubSet k.ws.toInt k.we.toInt (min a.hub.toInt b.hub.toInt) (max a.hub.toInt b.hub.toInt) &&
    decide (k.thr.toInt ≤ max a.elbow.toInt b.elbow.toInt)

/-- The swept test (R47): a GOTO or RETRACE from `a` to `b` needs the zone of link `k`. -/
def Link.neededFor (k : Link) (a b : Pair) : Bool := k.intrudedAt a || k.intrudedAt b || k.sweptBy a b

/-- A move of a kind with a plan needs the zone of link `k` (R47, R48): a HOME needs the zones its start intrudes, and
none from UNCERTAIN. -/
def Link.neededBy (k : Link) (kind : MoveKind) (p : Plan) : Bool :=
  match p.start with
  | none => false
  | some start =>
    match kind with
    | .goto => k.neededFor start.angles p.target.angles
    | .retrace => k.neededFor start.angles p.target.angles
    | .home => k.intrudedAt start.angles

/-- The needed zones of a move, in the order of the robot's links (R49). -/
def neededZones (links : List Link) (kind : MoveKind) (p : Plan) : List ZoneId :=
  (links.filter fun k => k.neededBy kind p).map Link.zone

/-! ### Presence -/

/-- Presence of a member in a zone (R50). -/
inductive Presence where
  | unknown | isIn | out
  deriving DecidableEq, Repr

/-- Robot `b` at its believed position intrudes zone `z` (R46). -/
def Robot.intrudes (b : Robot) (z : Nat) : Bool :=
  b.static.links.any fun k => decide (k.zone.val = z) && k.intrudedAt b.believed.angles

/-- A HOME member admitted from UNCERTAIN (R50). -/
def Member.homeFromUncertain (m : Member) : Bool := decide (m.kind = .home) && m.plan.start.isNone

/-- Robot `b` has a link to zone `z` (R4). -/
def Robot.linksTo (b : Robot) (z : Nat) : Bool := b.static.links.any fun k => decide (k.zone.val = z)

/-- An entry names robot `r` (R43). -/
def Zone.names (e : Zone) (r : RobotNo) : Bool := decide (e.memberA = some r) || decide (e.memberB = some r)

/-- An entry newly named robot `r` in a ZONE load while `r` was in a wave state (R59, log entry 35). -/
def Zone.joinedBy (e : Zone) (r : RobotNo) : Bool :=
  decide (e.memberA = some r) && e.joinedA || decide (e.memberB = some r) && e.joinedB

/-- Presence of robot `b` in zone `z`, with `m` its undecided member if it has one (R50). A robot in a wave state always
has one; were there none, its presence would be UNKNOWN (log entry 11). DESIGN CHOICE (log entry 35): a robot that homes from
UNCERTAIN is UNKNOWN by the table's row and R54, but OUT by R59 in a zone that it has no link to and that newly named it while it
was in a wave state (`joined`). -/
def presenceOf (b : Robot) (m : Option Member) (joined : Bool) (z : Nat) : Presence :=
  match b.slot with
  | .absent => .out
  | .uncertain => .unknown
  | .idle => if b.intrudes z then .isIn else .out
  | .arming => waveCase
  | .armed => waveCase
  | .moving => waveCase
  | .stopping => waveCase
where
  /-- The rows of R50 for a robot in a wave state. -/
  waveCase : Presence :=
    match m with
    | none => .unknown
    | some m =>
      if m.homeFromUncertain then (if joined && !b.linksTo z then .out else .unknown)
      else if (neededZones b.static.links m.kind m.plan).any fun y => decide (y.val = z) then .isIn else .out

/-- Presence of member `r` of entry `e`, which is zone `z`'s, among the undecided members `ms` (R50). -/
def State.presence (s : State) (ms : List Member) (e : Zone) (r : Option RobotNo) (z : Nat) : Presence :=
  match r with
  | none => .out
  | some r => presenceOf (s.robot r) (ms.find? fun m => m.robot = r) (e.joinedBy r) z

/-! ### Settlement -/

/-- An entry is held MOVING or PARKED by robot `r`. -/
def Zone.heldBy (e : Zone) (r : RobotNo) : Bool := decide (e.holder = .moving r) || decide (e.holder = .parked r)

/-- An entry held MOVING by a robot in a wave state keeps its holder through any settlement (R51). -/
def State.keepsHolder (s : State) (e : Zone) : Bool :=
  match e.holder with
  | .moving r => (s.robot r).slot.inWave
  | .free => false
  | .parked _ => false
  | .blocked => false

/-- The holder state that settlement gives an entry, from its members' presence (R51). -/
def holderFrom (e : Zone) (pa pb : Presence) : Holder :=
  match pa, pb with
  | .unknown, _ => .blocked
  | _, .unknown => .blocked
  | .isIn, .isIn => .blocked
  | .isIn, .out => match e.memberA with | some r => .parked r | none => .free
  | .out, .isIn => match e.memberB with | some r => .parked r | none => .free
  | .out, .out => .free

/-- Zone entry `z` after settlement, among the undecided members `ms` (R51). -/
def State.settled (s : State) (ms : List Member) (z : Nat) (e : Zone) : Zone :=
  if s.keepsHolder e then e
  else { e with holder := holderFrom e (s.presence ms e e.memberA z) (s.presence ms e e.memberB z) }

/-- The settlement of zone entry `z` finds both members IN (R52). -/
def State.conflicts (s : State) (ms : List Member) (z : Nat) (e : Zone) : Bool :=
  !s.keepsHolder e && decide (s.presence ms e e.memberA z = .isIn) && decide (s.presence ms e e.memberB z = .isIn)

/-- Raise a class once for each detail, in order. -/
def State.raiseEach (s : State) (c : EventClass) (details : List Nat) : State :=
  details.foldl (fun s d => s.raise c (halfOf d)) s

/-- Settle every zone entry that satisfies `sel`, among the undecided members `ms`: each holder state from R51, and
ZONE_CONFLICT once for each entry with both members IN, in increasing zone id (R52, log entry 10). -/
def State.settleWith (s : State) (ms : List Member) (sel : Nat → Zone → Bool) : State :=
  State.raiseEach { s with zones := mapTable (fun z e => if sel z e then s.settled ms z e else e) s.zones } .zoneConflict
    (indicesFrom (fun z e => sel z e && s.conflicts ms z e) 0 s.zones.toList)

/-- Settle the zone entries that satisfy `sel`. -/
def State.settle (s : State) (sel : Nat → Zone → Bool) : State := s.settleWith s.undecidedMembers sel

/-- Settle the zones naming robot `r`, each once (R53). -/
def State.settleNaming (s : State) (r : RobotNo) : State := s.settle fun _ e => e.names r

/-- Set to BLOCKED every entry held MOVING or PARKED by robot `r` (R54). -/
def State.blockHeld (s : State) (r : RobotNo) : State :=
  { s with zones := mapTable (fun _ e => if e.heldBy r then { e with holder := .blocked } else e) s.zones }

/-- Robot `r` becomes UNCERTAIN (R8, R9, R54): its believed position becomes zero, the zones it holds become BLOCKED,
and the zones naming it are settled. An entry just blocked that names `r` settles to BLOCKED again, since `r` is
UNKNOWN. -/
def State.becomeUncertain (s : State) (r : RobotNo) : State :=
  ((s.modRobot r fun b => { b with slot := .uncertain, believed := Position.zero }).blockHeld r).settleNaming r

/-- An entry with new members, of which it keeps in mind those that it newly names while they are in a wave state (R59, log
entry 35). -/
def State.renamed (s : State) (e : Zone) (a b : Option RobotNo) : Zone :=
  { e with memberA := a, memberB := b, joinedA := a.any joined, joinedB := b.any joined }
where
  /-- Robot `r` joins the entry, or has joined it before. -/
  joined (r : RobotNo) : Bool := if e.names r then e.joinedBy r else (s.robot r).slot.inWave

/-- An entry that keeps no newly named robot `r` in mind. -/
def Zone.forgetJoin (e : Zone) (r : RobotNo) : Zone :=
  { e with joinedA := e.joinedA && decide (e.memberA ≠ some r), joinedB := e.joinedB && decide (e.memberB ≠ some r) }

/-- No entry keeps a newly named robot `r` in mind: its HOME from UNCERTAIN is admitted, and the zones that name it now are its
zones while it homes (R54, log entry 35). -/
def State.forgetJoins (s : State) (r : RobotNo) : State := { s with zones := mapTable (fun _ e => e.forgetJoin r) s.zones }

/-! ### The take at commit -/

/-- A zone can be taken for robot `r` (R56). -/
def Zone.takeable (e : Zone) (r : RobotNo) : Bool := decide (e.holder = .free) || decide (e.holder = .parked r)

/-- Every zone of a needed list can be taken for robot `r` (R56). -/
def State.canTake (s : State) (r : RobotNo) (zs : List ZoneId) : Bool := zs.all fun z => (s.zone z).takeable r

/-- Set every zone of a needed list to MOVING(r) (R56). -/
def State.takeZones (s : State) (r : RobotNo) (zs : List ZoneId) : State :=
  zs.foldl (fun s z => s.setZone z { s.zone z with holder := .moving r }) s

end Sys2Proof.Machine
end

