-- ==== Sys2Proof/Machine/Waves.lean ====
section
/-!
DEFINITION. The Wave Controller: move records (R30, R63), the commit (R68 to R73), completion and the chain (R83 to R86),
how a member's outcome is decided (R74), the start mark (R80 to R83) and the abort (R87, R88).
-/

namespace Sys2Proof.Machine

/-! ### Move records -/

/-- Robot `r` holds a move record in the open wave. -/
def State.inOpen (s : State) (r : RobotNo) : Bool := s.openWave.any fun m => m.robot = r

/-- Robot `r` holds an entry in the deferred list. -/
def State.inDeferred (s : State) (r : RobotNo) : Bool := s.deferred.any fun d => d.record.robot = r

/-- Take every move record of robot `r` out of the open wave and the deferred list. -/
def State.withoutMoves (s : State) (r : RobotNo) : State :=
  { s with openWave := s.openWave.filter fun m => m.robot ≠ r, deferred := s.deferred.filter fun d => d.record.robot ≠ r }

/-- Withdraw robot `r`'s move record, from the open wave or the deferred list: when one is removed, the last outcome
becomes WITHDRAWN with reason none (R6, R30, R64). -/
def State.withdraw (s : State) (r : RobotNo) : State :=
  if s.inOpen r || s.inDeferred r then (s.withoutMoves r).setLast r .withdrawn .none else s

/-- Place a move record at the tail of the open wave, withdrawing what its robot held (R30). -/
def State.placeRecord (s : State) (m : MoveRecord) : State :=
  let s' := s.withdraw m.robot
  { s' with openWave := s'.openWave ++ [m] }

/-! ### The commit -/

/-- A candidate of a commit: its record and the deferral count it has reached, 0 from the open wave (R66). -/
structure Candidate where
  record : MoveRecord
  count : Nat
  deriving DecidableEq, Repr

/-- What a commit has done so far: the members admitted and the four counts. -/
structure CommitRun where
  members : List Member
  counts : CommitCounts
  deriving DecidableEq, Repr

/-- How a candidate is disposed of, before its effects (R70). -/
inductive Disposition where
  | drop (why : Reason)
  | null
  | defer
  | admitted (p : Plan)
  deriving DecidableEq, Repr

/-- The tests of R70 in their order. -/
def State.judgeCandidate (s : State) (m : MoveRecord) : Disposition :=
  let b := s.robot m.robot
  if b.slot = .absent then .drop .absent
  else if b.static.enable = false then .drop .disabled
  else if (s.line b.static.line).state = .down then .drop .lineDown
  else if m.what ≠ .home ∧ b.slot = .uncertain then .drop .uncertain
  else if m.what = .retrace ∧ b.stack = [] then .drop .empty
  else
    match planCandidate s m with
    | .fenced => .drop .fenced
    | .null => .null
    | .long => .drop .long
    | .plan p => if s.canTake m.robot (neededZones b.static.links m.what.kind p) then .admitted p else .defer

/-- The member of an admitted candidate, with the fields of R74 at their initial values (R72). -/
def newMember (s : State) (m : MoveRecord) (p : Plan) : Member :=
  let b := s.robot m.robot
  { robot := m.robot, line := b.static.line, drop := b.static.drop, kind := m.what.kind, profile := m.profile, plan := p,
    grace := (s.profile m.profile).grace, homeLimit := (s.profile m.profile).homeLimit,
    rest := if b.slot = .uncertain then .uncertain else .idle,
    delivery := .listed, late := false, clearLineReset := false, outcome := .none, reason := .none,
    goTime := none, deadline := none, remaining := 0, stop := .none }

/-- Admit a candidate (R72): its needed zones become MOVING (R56), its rest state is written, it joins the members, its
robot becomes ARMING and its DELIVER is listed. A HOME from UNCERTAIN leaves UNCERTAIN here, so its zones are settled (R53, log
entry 20): every one that names it now is BLOCKED while it homes (R54), unless another member's move holds it. -/
def admitCandidate (s : State) (run : CommitRun) (m : MoveRecord) (p : Plan) : State × CommitRun :=
  let b := s.robot m.robot
  let mem := newMember s m p
  let members := run.members ++ [mem]
  let s1 := s.takeZones m.robot (neededZones b.static.links m.what.kind p)
  let s2 := s1.modRobot m.robot fun b => { b with rest := mem.rest, slot := .arming }
  let s3 := s2.offerDeliver m.robot
  let s4 := if b.slot = .uncertain then (s3.forgetJoins m.robot).settleWith members fun _ e => e.names m.robot else s3
  (s4, { members := members, counts := { run.counts with admitted := run.counts.admitted + 1 } })

/-- Drop a candidate with a reason (R71). -/
def dropCandidate (s : State) (run : CommitRun) (m : MoveRecord) (why : Reason) : State × CommitRun :=
  (s.setLast m.robot .dropped why, { run with counts := { run.counts with dropped := run.counts.dropped + 1 } })

/-- Defer a candidate, or drop it EXPIRED or OVERFLOW with DEFER_DROP (R66). -/
def deferCandidate (s : State) (run : CommitRun) (c : Candidate) : State × CommitRun :=
  let r := c.record.robot
  let count := c.count + 1
  if Config.expiry ≤ count then dropCandidate (s.raise .deferDrop (halfOf r.val)) run c.record .expired
  else if Config.deferredMax ≤ s.deferred.length then
    dropCandidate (s.raise .deferDrop (halfOf r.val)) run c.record .overflow
  else
    (State.setLast { s with deferred := s.deferred ++ [⟨c.record, count⟩] } r .deferred .zone,
      { run with counts := { run.counts with deferred := run.counts.deferred + 1 } })

/-- Complete a zero move (R36, R71): a RETRACE removes the top stack entry. -/
def nullCandidate (s : State) (run : CommitRun) (m : MoveRecord) : State × CommitRun :=
  let s' := if m.what = .retrace then s.modRobot m.robot fun b => { b with stack := b.stack.tail } else s
  (s'.setLast m.robot .null .none, { run with counts := { run.counts with null := run.counts.null + 1 } })

/-- Examine one candidate to its end (R69, R70). -/
def examine (acc : State × CommitRun) (c : Candidate) : State × CommitRun :=
  let s := acc.1
  let run := acc.2
  match s.judgeCandidate c.record with
  | .drop why => dropCandidate s run c.record why
  | .null => nullCandidate s run c.record
  | .defer => deferCandidate s run c
  | .admitted p => admitCandidate s run c.record p

/-- The next wave number: from 65 535 to 1 (R73). -/
def nextWaveNumber (n : Half) : Half := if n = 0xFFFF then 1 else n + 1

/-- What a commit needs to create its wave (R73, R85). -/
structure CommitOrder where
  origin : Origin
  lead : Byte
  chainCount : Byte
  chainLead : Byte
  deriving DecidableEq, Repr

/-- Create the wave of a commit that admitted at least one member (R73). -/
def createWave (s : State) (o : CommitOrder) (run : CommitRun) : State :=
  if run.members = [] then s
  else
    let n := nextWaveNumber s.waveCounter
    { s with
      waveCounter := n
      wave := some
        { number := n, state := .arming, origin := o.origin, startMark := s.epoch.counter + o.lead.setWidth 32,
          lead := o.lead, chainRemaining := o.chainCount, chainLead := o.chainLead, counts := run.counts,
          members := run.members } }

/-- A commit of given candidates, already removed from their lists: each is examined in turn, then the wave is created
(R69, R73). -/
def commitCandidates (s : State) (cs : List Candidate) (o : CommitOrder) : State × CommitRun :=
  let acc := cs.foldl examine (s, { members := [], counts := ⟨0, 0, 0, 0⟩ })
  (createWave acc.1 o acc.2, acc.2)

/-- Deferred entries as candidates. -/
def deferredCandidates (s : State) : List Candidate := s.deferred.map fun d => ⟨d.record, d.count⟩

/-- Open-wave records as candidates. -/
def openCandidates (s : State) : List Candidate := s.openWave.map fun m => ⟨m, 0⟩

/-- A candidate's robot has PRIORITY set (R12). -/
def State.hasPriority (s : State) (c : Candidate) : Bool := (s.robot c.record.robot).static.priority

/-- The candidates of a COMMIT request in the order of the four groups of R69. -/
def requestCandidates (s : State) : List Candidate :=
  (deferredCandidates s).filter s.hasPriority ++ (openCandidates s).filter s.hasPriority ++
    (deferredCandidates s).filter (fun c => !s.hasPriority c) ++ (openCandidates s).filter (fun c => !s.hasPriority c)

/-- The candidates of a chain commit: groups 1 and 3 of R69 (R85). -/
def chainCandidates (s : State) : List Candidate :=
  (deferredCandidates s).filter s.hasPriority ++ (deferredCandidates s).filter (fun c => !s.hasPriority c)

/-- The commit of a COMMIT request: every record of both lists is a candidate (R69). -/
def commitRequested (s : State) (lead chainCount chainLead : Byte) : State × CommitRun :=
  commitCandidates { s with openWave := [], deferred := [] } (requestCandidates s) ⟨.request, lead, chainCount, chainLead⟩

/-- The chain commit at the DONE of wave `w` (R85), and CHAIN_STUCK when it admits no member (R86). -/
def chainCommit (s : State) (w : Wave) : State :=
  let out := commitCandidates { s with deferred := [] } (chainCandidates s)
    ⟨.chain, w.chainLead, w.chainRemaining - 1, w.chainLead⟩
  if out.2.members = [] then (out.1.modWave fun w => { w with chainRemaining := 0 }).raise .chainStuck w.number else out.1

/-! ### Completion and the chain -/

/-- The wave becomes DONE (R84): WAVE_DONE is raised and the chain examined on the record just done. -/
def waveDone (s : State) (w : Wave) : State :=
  let s1 := (s.modWave fun w => { w with state := .done }).raise .waveDone w.number
  if w.chainRemaining = 0 then s1
  else if s1.deferred = [] then s1.modWave fun w => { w with chainRemaining := 0 }
  else chainCommit s1 w

/-- A RUNNING or ABORTING wave whose undecided count is 0 becomes DONE (R83). -/
def doneTest (s : State) : State :=
  match s.wave with
  | none => s
  | some w => if (w.state = .running ∨ w.state = .aborting) ∧ w.undecided = 0 then waveDone s w else s

/-- A delivery not yet settled: LISTED, IN_FLIGHT or CLEARING (R79). -/
def Delivery.unsettled : Delivery → Bool
  | .listed => true
  | .inFlight => true
  | .clearing => true
  | .accepted => false
  | .closed => false

/-- An ARMING wave with no member LISTED, IN_FLIGHT or CLEARING becomes ARMED (R79). -/
def armTest (s : State) : State :=
  match s.wave with
  | none => s
  | some w =>
    if w.state = .arming ∧ (w.members.any fun m => m.delivery.unsettled) = false then
      s.modWave fun w => { w with state := .armed }
    else s

/-! ### Deciding a member -/

/-- Record a member's outcome (R74): the member's and its robot's last outcome and reason are written, its delivery is CLOSED
when it has ended before GO (R74, R79, log entry 28), its overrun deadline is cancelled (R94) and it leaves the poll cycle
(R95). -/
def State.conclude (s : State) (r : RobotNo) (o : Ending) (why : Reason) : State :=
  ((s.modMember r fun m =>
    { m with
      outcome := o, reason := why, deadline := none, stop := .none
      delivery := if m.goTime = none then .closed else m.delivery }).setLast r o why).leaveCycle r

/-- Decide a member whose robot returns to its rest state (MISSED, HALTED_AT_START): the held believed position is valid
again from a rest state of IDLE (R9); from UNCERTAIN the robot is UNCERTAIN again (R54). The zones are settled once. -/
def State.concludeAtRest (s : State) (r : RobotNo) (o : Ending) (why : Reason) : State :=
  let s' := s.conclude r o why
  match (s'.robot r).rest with
  | .idle => (s'.setSlot r .idle).settleNaming r
  | .uncertain => s'.becomeUncertain r

/-- Decide a member whose robot's position is lost: it becomes UNCERTAIN, with R54 on its zones. -/
def State.concludeUncertain (s : State) (r : RobotNo) (o : Ending) (why : Reason) : State :=
  (s.conclude r o why).becomeUncertain r

/-- A retrace stack after a push: at most four entries, the oldest lost (R13). -/
def pushStack (stack : List Position) (p : Position) : List Position := (p :: stack).take Config.stackDepth

/-- A retrace stack after a confirmed arrival of a member (R14, R15). -/
def stackAfter (m : Member) (stack : List Position) : List Position :=
  match m.kind with
  | .goto =>
    match m.plan.start with
    | some p => pushStack stack p
    | none => stack
  | .retrace => stack.tail
  | .home => stack

/-- Confirmed arrival of member `m` (R98). -/
def State.arrive (s : State) (m : Member) : State :=
  let s1 := s.modRobot m.robot fun b =>
    { b with believed := m.plan.target, stack := stackAfter m b.stack, slot := .idle }
  (s1.conclude m.robot .arrived .none).settleNaming m.robot

/-- Change the delivery state of robot `r`'s undecided member. -/
def State.setDelivery (s : State) (r : RobotNo) (d : Delivery) : State := s.modMember r fun m => { m with delivery := d }

/-- Robot `r`'s member stops: the robot becomes STOPPING, the member leaves the poll cycle, its overrun deadline is
cancelled (R88, R94, R95), and it waits for `ph`. -/
def State.stopMember (s : State) (r : RobotNo) (ph : StopPhase) : State :=
  ((s.setSlot r .stopping).leaveCycle r).modMember r fun m => { m with deadline := none, stop := ph }

/-- A member LISTED at the start mark or at ABORT (R81, R87): its DELIVER is removed and it is MISSED. -/
def State.missListed (s : State) (r : RobotNo) : State :=
  ((s.removeDeliver r).setDelivery r .closed).concludeAtRest r .missed .none

/-! ### The start mark -/

/-- The four lines. -/
def allLines : List LineNo := [0, 1, 2, 3]

/-- Robots of the undecided members that satisfy `p`, in admission order. -/
def State.memberRobots (s : State) (p : Member → Bool) : List RobotNo := (s.undecidedMembers.filter p).map Member.robot

/-- A member's DELIVER waits in the normal list. -/
def Member.isListed (m : Member) : Bool := decide (m.delivery = .listed)

/-- A member's DELIVER is in flight. -/
def Member.isInFlight (m : Member) : Bool := decide (m.delivery = .inFlight)

/-- Line `l` carries an undecided member whose robot is ARMED (R81). -/
def State.hasArmed (s : State) (l : LineNo) : Bool :=
  s.undecidedMembers.any fun m => decide (m.line = l) && decide ((s.robot m.robot).slot = .armed)

/-- The excluded drop of line `l`'s GO: the late member's drop, or 0 (R82). -/
def State.excludedDrop (s : State) (l : LineNo) : Byte :=
  match s.undecidedMembers.find? fun m => decide (m.line = l) && m.late with
  | some m => m.drop
  | none => 0

/-- Set the GO pending on a line that carries an ARMED member (R81). -/
def State.goOnLine (n : Half) (s : State) (l : LineNo) : State :=
  if s.hasArmed l then s.offerGo l ⟨n, s.excludedDrop l⟩ else s

/-- The start of wave `w` (R81 to R83): LISTED members are MISSED, members IN_FLIGHT are marked late, GO is set pending
on each line with an ARMED member, WAVE_LATE is raised if any member was missed or late, and the wave is DONE when
nothing is left undecided. -/
def startWave (s : State) (w : Wave) : State :=
  let missed := s.memberRobots Member.isListed
  let late := s.memberRobots Member.isInFlight
  let s1 := s.modWave fun w => { w with state := .running }
  let s2 := missed.foldl State.missListed s1
  let s3 := late.foldl (fun s r => s.modMember r fun m => { m with late := true }) s2
  let s4 := allLines.foldl (State.goOnLine w.number) s3
  let s5 := if missed = [] ∧ late = [] then s4 else s4.raise .waveLate w.number
  doneTest s5

/-- An epoch mark handed to the Wave Controller with the counter's new value (R80, R144). -/
def waveMark (s : State) : State :=
  match s.wave with
  | none => s
  | some w =>
    if (w.state = .arming ∨ w.state = .armed) ∧ w.startMark = s.epoch.counter then startWave s w else s

/-! ### The abort -/

/-- A member made STOPPING by an ABORT (R88): its robot is ARMED or MOVING, or its DELIVER is IN_FLIGHT. -/
def State.abortStops (s : State) (m : Member) : Bool :=
  decide ((s.robot m.robot).slot = .armed) || decide ((s.robot m.robot).slot = .moving) ||
    (decide (m.delivery = .inFlight) && decide ((s.robot m.robot).slot ≠ .stopping))

/-- Make a member STOPPING and begin its read-back with the broadcast (R88, R105). -/
def State.abortMember (s : State) (r : RobotNo) : State := (s.stopMember r (.read 1)).offerRead r false true

/-- Line `l` carries an undecided member (R87). -/
def State.hasUndecided (s : State) (l : LineNo) : Bool := s.undecidedMembers.any fun m => decide (m.line = l)

/-- Set the HALT broadcast on a line that still carries an undecided member (R87). -/
def State.haltLine (s : State) (l : LineNo) : State := if s.hasUndecided l then s.offerHaltAll l else s

/-- The abort of the active wave (R87, R88), up to its completion test: the state, the number of members made MISSED
and the number made STOPPING. -/
def abortWave (s : State) : State × Nat × Nat :=
  let missed := s.memberRobots Member.isListed
  let s1 := s.modWave fun w => { w with state := .aborting, chainRemaining := 0 }
  let s2 := s1.modLines fun e => { e with goPending := none }
  let s3 := missed.foldl State.missListed s2
  let s4 := allLines.foldl State.haltLine s3
  let stopped := s4.memberRobots s4.abortStops
  let s5 := stopped.foldl State.abortMember s4
  (s5, missed.length, stopped.length)

end Sys2Proof.Machine
end

