-- ==== Sys2Proof/Machine/Timebase.lean ====
section
/-!
DEFINITION. The Epoch Timebase: marks and re-phases (R143), and EPOCH pulses in the three modes (R145 to R150).
Differences between times are formed exactly, over the integers.
-/

namespace Sys2Proof.Machine

/-- The timer restarts at a time, taking P as its running period (R143). -/
def Epoch.restart (e : Epoch) (time : Nat) : Epoch := { e with tLast := time, running := e.period }

/-- A mark at a time (R143, R144): the counter advances, the timer restarts, and the mark is handed to the Wave
Controller with the counter's new value. -/
def takeMark (s : State) (time : Nat) : State :=
  waveMark { s with epoch := { s.epoch.restart time with counter := s.epoch.counter + 1 } }

/-- A re-phase at a time: the timer restarts without a mark (R143). -/
def rePhase (s : State) (time : Nat) : State := { s with epoch := s.epoch.restart time }

/-- The expected time of the next mark (R142). -/
def Epoch.tNext (e : Epoch) : Nat := e.tLast + e.running.toNat

/-- The timer expires at t_next (R143). -/
def expire (s : State) : State := takeMark (s.clock (BitVec.ofNat 64 s.epoch.tNext)) s.epoch.tNext

/-- The effective window at a pulse (R145). -/
def Epoch.effectiveWindow (e : Epoch) : Nat := min e.window.toNat (e.running.toNat / 8)

/-- Where a pulse at time `t` falls: in the earlier half of the period, at most half of it since t_last (R145). -/
def Epoch.earlierHalf (e : Epoch) (t : Nat) : Bool := decide (2 * ((t : Int) - e.tLast) ≤ e.running.toNat)

/-- At least half the running period has passed since t_last (R148, R149). -/
def Epoch.laterHalf (e : Epoch) (t : Nat) : Bool := decide ((e.running.toNat : Int) ≤ 2 * ((t : Int) - e.tLast))

/-- The early window, with a pulse at t_next that is taken before the expiry (R145). -/
def Epoch.inEarly (e : Epoch) (t : Nat) : Bool :=
  decide ((e.tNext : Int) - e.effectiveWindow ≤ t) && decide (t ≤ e.tNext)

/-- The late window (R145). -/
def Epoch.inLate (e : Epoch) (t : Nat) : Bool := decide (e.tLast ≤ t) && decide (t ≤ e.tLast + e.effectiveWindow)

/-- The offset of a pulse after the last restart. -/
def Epoch.offsetLate (e : Epoch) (t : Nat) : Int := (t : Int) - e.tLast

/-- The offset of a pulse from the next mark. -/
def Epoch.offsetEarly (e : Epoch) (t : Nat) : Int := (t : Int) - e.tNext

/-- An offset as stored, clamped to half the running period, rounded down (R150). -/
def Epoch.storedOffset (e : Epoch) (d : Int) : Word :=
  BitVec.ofInt 32 (clampInt (-((e.running.toNat / 2 : Nat) : Int)) ((e.running.toNat / 2 : Nat) : Int) d)

/-- What a pulse does to the timer. -/
inductive PulseAction where
  | measure | mark | rePhase
  deriving DecidableEq, Repr

/-- How a pulse is taken: action, offset, lock status, and the mode it leaves. -/
structure PulseResult where
  action : PulseAction
  offset : Int
  lock : LockStatus
  mode : EpochMode
  deriving DecidableEq, Repr

/-- A pulse at time `t` in FREE mode (R146). -/
def pulseFree (e : Epoch) (t : Nat) : PulseResult :=
  let d := if e.earlierHalf t then e.offsetLate t else e.offsetEarly t
  ⟨.measure, d, if d.natAbs ≤ e.effectiveWindow then .aligned else .slipped, .free⟩

/-- A pulse at time `t` in TRACK mode (R147, R148). -/
def pulseTrack (e : Epoch) (t : Nat) : PulseResult :=
  if e.inEarly t then ⟨.mark, e.offsetEarly t, .aligned, .track⟩
  else if e.inLate t then ⟨.rePhase, e.offsetLate t, .aligned, .track⟩
  else if e.laterHalf t then ⟨.mark, e.offsetEarly t, .slipped, .track⟩
  else ⟨.rePhase, e.offsetLate t, .slipped, .track⟩

/-- A pulse at time `t` in ONCE mode (R149). -/
def pulseOnce (e : Epoch) (t : Nat) : PulseResult :=
  if e.laterHalf t then ⟨.mark, e.offsetEarly t, .aligned, .free⟩ else ⟨.rePhase, e.offsetLate t, .aligned, .free⟩

/-- How a pulse at time `t` is taken, by the mode held (R145). -/
def pulseResult (e : Epoch) (t : Nat) : PulseResult :=
  match e.mode with
  | .free => pulseFree e t
  | .track => pulseTrack e t
  | .once => pulseOnce e t

/-- An EPOCH pulse taken at the timer's reading (R145 to R150): the offset, lock status and mode are written, EPOCH_SLIP
is raised with the active wave's number when the status is SLIPPED, and the timer is marked, re-phased or left. -/
def takePulse (s : State) : State :=
  let p := pulseResult s.epoch s.now
  let s1 := { s with epoch := { s.epoch with offset := s.epoch.storedOffset p.offset, lock := p.lock, mode := p.mode } }
  let s2 := if p.lock = .slipped then s1.raise .epochSlip s.activeWaveNumber else s1
  match p.action with
  | .measure => s2
  | .mark => takeMark s2 s.now
  | .rePhase => rePhase s2 s.now

end Sys2Proof.Machine
end

