-- ==== Sys2Proof/Machine/EpochEvents.lean ====
section
/-!
DEFINITION. The events of the Epoch Timebase (7.2, 7.3).
-/

namespace Sys2Proof.Machine

/-- EPOCH_MARK (R143). -/
def execEpochMark (s : State) : Host.Outcome State Fault Refusal := running s expire

/-- EPOCH_PULSE (R145). -/
def execEpochPulse (t : Time) (s : State) : Host.Outcome State Fault Refusal :=
  running s fun s => takePulse (s.clock t)

end Sys2Proof.Machine
end

