-- ==== Sys2Proof/Machine/Supervision.lean ====
section
/-!
DEFINITION. The rules that judge the end of a transaction (R118): deliveries (R76, R77, R82, R88), clears (R78, R108),
HALT singles (R104, R105), READs (R105 to R108, R112), polls (R96 to R102), the GO (R93), and a line going DOWN (R113).
-/

namespace Sys2Proof.Machine

/-- The reason of a failure: LINE_RESET when a LINE_RESET caused it, otherwise none. -/
def failReason (lineReset : Bool) : Reason := if lineReset then .lineReset else .none

/-- The reason a transaction's end gives: LINE_RESET for a failure that a LINE_RESET caused, otherwise none. -/
def TxnEnd.failReason : TxnEnd → Reason
  | .failed lineReset => Machine.failReason lineReset
  | .accepted => .none
  | .refused _ => .none
  | .polled _ _ _ _ _ => .none
  | .statused _ _ _ _ => .none

/-- Decide robot `r`'s member LOST and raise LOST (R78, R101, R108). -/
def State.concludeLost (s : State) (r : RobotNo) (why : Reason) : State :=
  (s.concludeUncertain r .lost why).raise .lost (halfOf r.val)

/-- Decide robot `r`'s member STALLED and raise STALL (R99, R106, R107). -/
def State.concludeStalled (s : State) (r : RobotNo) (why : Reason) : State :=
  (s.concludeUncertain r .stalled why).raise .stall (halfOf r.val)

/-! ### Deliveries -/

/-- Remove the READ that an ABORT listed for member `m` while its DELIVER was in flight (R88). A member that no abort made
STOPPING waits for no read-back, and a READ listed for its robot stays (R120). -/
def State.removeAbortRead (s : State) (m : Member) : State := if m.stop = .none then s else s.removeRead m.robot

/-- Member `m` may hold a segment it must not run: it becomes CLEARING, its robot STOPPING, a READ that an abort listed for
it is removed (R88) and a CLEAR is listed urgent (R77, R82). -/
def State.beginClear (s : State) (m : Member) (lineReset : Bool) : State :=
  (((s.setSlot m.robot .stopping).modMember m.robot fun m =>
    { m with delivery := .clearing, clearLineReset := lineReset, stop := .none }).removeAbortRead m).offerClear m.robot

/-- The end of member `m`'s DELIVER (R76, R77, R82, R88). -/
def judgeDeliver (s : State) (m : Member) : TxnEnd → State
  | .accepted =>
    if m.late then s.beginClear m false
    else if m.stop = .none then (s.setDelivery m.robot .accepted).setSlot m.robot .armed
    else s.setDelivery m.robot .accepted
  | .refused f =>
    (((s.setFaultCode m.robot f).removeAbortRead m).setDelivery m.robot .closed).concludeAtRest m.robot .missed .refused
  | .failed lineReset => s.beginClear m lineReset
  | .polled _ _ _ _ _ => s
  | .statused _ _ _ _ => s

/-! ### Clears -/

/-- The end of a CLEAR for a CLEARING member (R78). -/
def judgeClear (s : State) (m : Member) : TxnEnd → State
  | .accepted =>
    (s.setDelivery m.robot .closed).concludeAtRest m.robot .missed (failReason m.clearLineReset)
  | .refused f =>
    (((s.setFaultCode m.robot f).modMember m.robot fun m =>
      { m with delivery := .accepted, stop := .halt 1 })).offerHalt m.robot
  | .failed _ => (s.setDelivery m.robot .closed).concludeLost m.robot .none
  | .polled _ _ _ _ _ => s
  | .statused _ _ _ _ => s

/-- The end of the read-back's own CLEAR (R108). -/
def judgeReadBackClear (s : State) (m : Member) : TxnEnd → State
  | .accepted => s.concludeAtRest m.robot .haltedAtStart .none
  | .refused f => (s.setFaultCode m.robot f).concludeUncertain m.robot .haltedUnknown .none
  | .failed lineReset => s.concludeLost m.robot (failReason lineReset)
  | .polled _ _ _ _ _ => s
  | .statused _ _ _ _ => s

/-! ### HALT singles -/

/-- The end of an overrun HALT single, answered or failed (R104). -/
def judgeOverrunHalt (s : State) (m : Member) (en : TxnEnd) : State :=
  (s.concludeUncertain m.robot .overrun en.failReason).raise .overrun (halfOf m.robot.val)

/-- The end of the HALT single of a read-back round, answered or failed: its READ is listed (R105). -/
def judgeReadBackHalt (s : State) (m : Member) (round : Nat) : State :=
  (s.modMember m.robot fun m => { m with stop := .read round }).offerRead m.robot false true

/-! ### The read-back -/

/-- The outcome of a robot found at rest, by its reported steps (R106). -/
def concludeFound (s : State) (m : Member) (counters : Pair) : State :=
  if m.plan.start.map Position.steps = some counters then s.concludeAtRest m.robot .haltedAtStart .none
  else if m.plan.target.steps = counters then s.arrive m
  else s.concludeUncertain m.robot .haltedUnknown .none

/-- A status answer of a robot at rest (R106): its outcome is decided, and it leaves every list of its line (log entry
12). -/
def judgeAtRest (s : State) (m : Member) (counters : Pair) : State := (concludeFound s m counters).leaveLists m.robot

/-- A status answer of the read-back, by its state code (R106 to R108). -/
def judgeReadBack (s : State) (m : Member) (round : Nat) (code : Byte) (posOk : Bool) (counters : Pair) : State :=
  match code.toNat with
  | 0 => judgeAtRest s m counters
  | 1 => (s.modMember m.robot fun m => { m with stop := .clear }).offerClear m.robot
  | 4 => if posOk then judgeAtRest s m counters else s.concludeStalled m.robot .mismatch
  | 5 => s.concludeStalled m.robot .none
  | 6 => s.concludeStalled m.robot .none
  | _ =>
    if round = 1 then (s.modMember m.robot fun m => { m with stop := .halt 2 }).offerHalt m.robot
    else s.concludeUncertain m.robot .haltedUnknown .none

/-- Store what a status answer reports (R10, R105). -/
def State.storeStatus (s : State) (r : RobotNo) (fault : Byte) (counters : Pair) : State :=
  s.modRobot r fun b => { b with reported := counters, reportedValid := true, fault := fault }

/-- A status answer judged for a REFRESH, by the slot state held when the answer comes back (R112): an IDLE robot found
elsewhere than its believed steps, or in another state, is UNCERTAIN with DRIFT. -/
def judgeRefresh (s : State) (r : RobotNo) (code : Byte) (counters : Pair) : State :=
  let b := s.robot r
  if b.slot = .idle ∧ ¬((code = 0 ∨ code = 4) ∧ counters = b.believed.steps) then
    ((s.setLast r .stalled .drift).becomeUncertain r).raise .stall (halfOf r.val)
  else s

/-- The round of a read-back whose READ a member waits for. -/
def StopPhase.readRound? : StopPhase → Option Nat
  | .read round => some round
  | .none => Option.none
  | .overrunHalt => Option.none
  | .halt _ => Option.none
  | .clear => Option.none

/-- The member whose read-back robot `r`'s READ serves, with its round. -/
def State.readBack? (s : State) (r : RobotNo) : Option (Member × Nat) :=
  match s.member? r with
  | none => none
  | some m =>
    match m.stop.readRound? with
    | none => none
    | some round => some (m, round)

/-- The end of a READ (R105 to R108, R112). A READ may serve a REFRESH, a read-back or both. -/
def judgeRead (s : State) (r : RobotNo) (refresh readBack : Bool) : TxnEnd → State
  | .statused code posOk fault counters =>
    let s' := s.storeStatus r fault counters
    if readBack then
      match s.readBack? r with
      | some (m, round) => judgeReadBack s' m round code posOk counters
      | none => if refresh then judgeRefresh s' r code counters else s'
    else if refresh then judgeRefresh s' r code counters
    else s'
  | .failed lineReset =>
    if readBack then
      match s.readBack? r with
      | some (m, _) => s.concludeLost m.robot (failReason lineReset)
      | none => s
    else s
  | .accepted => s
  | .refused _ => s
  | .polled _ _ _ _ _ => s

/-! ### Polls -/

/-- A poll answer of ARMED: the robot did not receive the GO (R100). -/
def judgePollArmed (s : State) (m : Member) : State :=
  ((s.stopMember m.robot .none).modMember m.robot fun m =>
    { m with delivery := .clearing, clearLineReset := false }).offerClear m.robot

/-- A poll answer of MOVING or HOMING: the remaining intervals are stored and the next poll is due one POLL_PERIOD
after the end of the exchange (R95, R97). -/
def judgePollMoving (s : State) (m : Member) (remaining : Half) : State :=
  (s.modMember m.robot fun m => { m with remaining := remaining }).nextPoll m.line m.robot
    (s.now + (s.line m.line).timing.pollPeriod.toNat * 1000)

/-- A poll answer that shows the robot stopped or elsewhere (R99): the fault code is stored and the member STALLED. -/
def judgePollStall (s : State) (m : Member) (fault : Byte) (why : Reason) : State :=
  (s.setFaultCode m.robot fault).concludeStalled m.robot why

/-- A valid poll answer for MOVING member `m` of wave `n` (R96). -/
def judgePollAnswer (s : State) (m : Member) (n : Half) (code : Byte) (posOk : Bool) (fault : Byte)
    (wave remaining : Half) : State :=
  if code = 1 then judgePollArmed s m
  else if wave ≠ n then judgePollStall s m fault .lostSeg
  else
    match code.toNat with
    | 2 => judgePollMoving s m remaining
    | 3 => judgePollMoving s m remaining
    | 4 => if posOk then s.arrive m else judgePollStall s m fault .mismatch
    | 5 => judgePollStall s m fault .none
    | 6 => judgePollStall s m fault .none
    | _ => judgePollStall s m fault .lostSeg

/-- The end of a POLL: it decides nothing when the robot is no longer MOVING (R102). -/
def judgePoll (s : State) (r : RobotNo) (en : TxnEnd) : State :=
  match s.wave, s.member? r with
  | some w, some m =>
    if (s.robot r).slot = .moving then
      match en with
      | .polled code posOk fault wave remaining => judgePollAnswer s m w.number code posOk fault wave remaining
      | .failed lineReset => s.concludeLost r (failReason lineReset)
      | .accepted => s
      | .refused _ => s
      | .statused _ _ _ _ => s
    else s
  | _, _ => s

/-! ### The GO -/

/-- The overrun deadline of a member started at `go` (R93). -/
def overrunDeadlineOf (m : Member) (go : Nat) : Nat :=
  match m.plan.body with
  | .segment g => go + (g.n.toNat + m.grace.toNat) * 1000
  | .home _ _ => go + (m.homeLimit.toNat + m.grace.toNat) * 1000

/-- Start one ARMED member at the end of its line's GO (R93). -/
def State.startMember (s : State) (l : LineNo) (m : Member) : State :=
  ((s.setSlot m.robot .moving).modMember m.robot fun m =>
    { m with goTime := some s.now, deadline := some (overrunDeadlineOf m s.now), remaining := m.plan.n }).joinCycle l
      m.robot (s.now + (s.line l).timing.pollPeriod.toNat * 1000)

/-- The members of the wave of a GO on line `l` whose robots are ARMED (R93). -/
def State.armedMembers (s : State) (l : LineNo) (n : Half) : List Member :=
  match s.wave with
  | none => []
  | some w =>
    if w.number = n then
      w.undecidedMembers.filter fun m => decide (m.line = l) && decide ((s.robot m.robot).slot = .armed)
    else []

/-- The end of a GO broadcast (R93, R129). -/
def judgeGo (s : State) (l : LineNo) (g : GoFlag) : State :=
  (s.armedMembers l g.wave).foldl (fun s m => s.startMember l m) s

/-! ### The end of a transaction -/

/-- The judgement of a DELIVER: the member must be LISTED or IN_FLIGHT. -/
def endDeliver (s : State) (r : RobotNo) (en : TxnEnd) : State :=
  match s.member? r with
  | none => s
  | some m => if m.delivery = .listed ∨ m.delivery = .inFlight then doneTest (armTest (judgeDeliver s m en)) else s

/-- The judgement of a CLEAR: R78 for a CLEARING member, R108 for one in a read-back waiting for its CLEAR. -/
def endClear (s : State) (r : RobotNo) (en : TxnEnd) : State :=
  match s.member? r with
  | none => s
  | some m =>
    if m.delivery = .clearing then doneTest (armTest (judgeClear s m en))
    else if m.stop = .clear then doneTest (armTest (judgeReadBackClear s m en))
    else s

/-- The judgement of a HALT single: R104 for an overrun member, R105 for a read-back round, otherwise none. -/
def endHalt (s : State) (r : RobotNo) (en : TxnEnd) : State :=
  match s.member? r with
  | none => s
  | some m =>
    match m.stop with
    | .overrunHalt => doneTest (judgeOverrunHalt s m en)
    | .halt round => judgeReadBackHalt s m round
    | .none => s
    | .read _ => s
    | .clear => s

/-- A transaction of line `l`, of a kind, has ended: its result goes to the rule that judges it (R118). The end of a
transaction whose robot's record was reloaded meanwhile (`stale`) is neither stored nor judged (R7). -/
def judgeEnd (s : State) (l : LineNo) (kind : TxnKind) (stale : Bool) (en : TxnEnd) : State :=
  match kind with
  | .deliver r => if stale then s else endDeliver s r en
  | .read r refresh readBack => if stale then s else doneTest (judgeRead s r refresh readBack en)
  | .clear r => if stale then s else endClear s r en
  | .haltSingle r => if stale then s else endHalt s r en
  | .poll r => if stale then s else doneTest (judgePoll s r en)
  | .go g => judgeGo s l g
  | .haltAll => s

/-! ### A line going DOWN -/

/-- Decide one member of a line that goes DOWN (R113). -/
def State.loseMember (s : State) (r : RobotNo) : State :=
  (s.modMember r fun m => if m.delivery.unsettled then { m with delivery := .closed } else m).concludeUncertain r .lost
    .none

/-- Decide every undecided member of a line that goes DOWN, then let the wave go on (R113). -/
def loseMembers (s : State) (l : LineNo) : State :=
  doneTest (armTest ((s.memberRobots fun m => decide (m.line = l)).foldl State.loseMember s))

/-! ### The overrun deadline -/

/-- The overrun deadline of robot `r`'s MOVING member runs out (R103). -/
def overrunExpired (s : State) (r : RobotNo) : State :=
  match s.member? r with
  | none => s
  | some m =>
    match m.deadline with
    | none => s
    | some d =>
      if (s.robot r).slot = .moving ∧ d ≤ s.now then (s.stopMember r .overrunHalt).offerHalt r else s

end Sys2Proof.Machine
end

