-- ==== Sys2Proof/Machine/Engine.lean ====
section
/-!
DEFINITION. The Line Engine: the arbiter (R122), the start and end of a transaction (R117, R118), the exchanges
(R126 to R130), answers and silence (R131 to R133), a line going DOWN (R134), LINE_RESET (R135, R136) and what controller
reset does to a line (R141). Every operation reads the time from the part's timer.
-/

namespace Sys2Proof.Machine

/-! ### Small changes of a line -/

/-- The last character on line `l` is now (R122). -/
def State.touchLine (s : State) (l : LineNo) : State := s.modLine l fun e => { e with lastChar := s.now }

/-- Line `l` with an engine state and its transaction in flight. -/
def State.setTxn (s : State) (l : LineNo) (st : EngineState) (x : Txn) : State :=
  s.modLine l fun e => { e with state := st, txn := some x }

/-- Line `l` with no transaction and its engine IDLE. -/
def State.freeEngine (s : State) (l : LineNo) : State := s.modLine l fun e => { e with state := .idle, txn := none }

/-- Line `l` with its residue gone. -/
def State.clearResidue (s : State) (l : LineNo) : State := s.modLine l fun e => { e with residue := none }

/-- Line `l` with its residue in another phase of its exchange. -/
def State.setResidue (s : State) (l : LineNo) (ρ : Residue) (ph : Phase) : State :=
  s.modLine l fun e => { e with residue := some { ρ with txn := { ρ.txn with phase := ph } } }

/-- Count a garbled answer (R138). -/
def State.countGarbled (s : State) (l : LineNo) : State :=
  s.modLine l fun e => { e with counters := { e.counters with garbled := countUp e.counters.garbled } }

/-- Count a retry (R138). -/
def State.countRetry (s : State) (l : LineNo) : State :=
  s.modLine l fun e => { e with counters := { e.counters with retries := countUp e.counters.retries } }

/-- An answer has been received or cut short: the silence count becomes 0 (R133). -/
def State.heard (s : State) (l : LineNo) : State := s.modLine l fun e => { e with silence := 0 }

/-- A wait has ended in silence: the timeouts counter and the silence count rise (R133, R138). -/
def State.countSilence (s : State) (l : LineNo) : State :=
  s.modLine l fun e =>
    { e with silence := e.silence + 1, counters := { e.counters with timeouts := countUp e.counters.timeouts } }

/-! ### Frames and limits -/

/-- A broadcast frame (R129). -/
def FrameKind.isBroadcast : FrameKind → Bool
  | .go _ => true
  | .haltAll => true
  | .call => false
  | .body _ => false
  | .readRequest => false
  | .endFrame => false
  | .clear => false
  | .halt => false
  | .poll => false

/-- The END frame (R130). -/
def FrameKind.isEnd : FrameKind → Bool
  | .endFrame => true
  | .go _ => false
  | .haltAll => false
  | .call => false
  | .body _ => false
  | .readRequest => false
  | .clear => false
  | .halt => false
  | .poll => false

/-- A frame that awaits an answer (R131). -/
def FrameKind.awaits (f : FrameKind) : Bool := !f.isBroadcast && !f.isEnd

/-- The limit within which an answer to a frame must begin (R131). -/
def answerLimit (t : Timing) (f : FrameKind) : Nat :=
  t.tTurn.toNat +
    match f with
    | .call => t.tCall.toNat
    | .body _ => t.tBody.toNat
    | .readRequest => t.tRead.toNat
    | .clear => t.tShort.toNat
    | .halt => t.tShort.toNat
    | .poll => t.tShort.toNat
    | .endFrame => 0
    | .go _ => 0
    | .haltAll => 0

/-- The frame a transaction sends after READY: the body of a DELIVER, the read request of a READ (R127). -/
def Txn.bodyFrame (x : Txn) : FrameKind :=
  match x.body with
  | some b => .body b
  | none => .readRequest

/-- The broadcast a transaction is sending, if it is sending one. -/
def Txn.sendingFrame? (x : Txn) : Option FrameKind :=
  match x.phase with
  | .sending f => some f
  | .gap _ _ => none
  | .waiting _ _ => none
  | .receiving _ _ => none

/-! ### Starting a transaction -/

/-- Start a transaction (R117): it takes the drop and the timing record as held, its first frame begins at once, and
the transactions counter rises (R138). An answer that an abandoned transaction could still draw is looked for no longer. -/
def State.startTxn (s : State) (l : LineNo) (kind : TxnKind) (body : Option Body) (drop : Byte) (st : EngineState)
    (f : FrameKind) : State :=
  s.modLine l fun e =>
    { e with
      state := st
      txn := some { kind := kind, body := body, drop := drop, timing := e.timing, calls := 1, bodies := 0,
                    phase := .sending f, stale := false }
      residue := none
      counters := { e.counters with transactions := countUp e.counters.transactions } }

/-- The drop of robot `r`, as its record holds it (R2). -/
def State.dropOf (s : State) (r : RobotNo) : Byte := (s.robot r).static.drop

/-- Start the head of the urgent list (R119). -/
def startUrgent (s : State) (l : LineNo) (x : UrgentEntry) (rest : List UrgentEntry) : State :=
  let s' := s.modLine l fun e => { e with urgent := rest }
  match x.kind with
  | .clear => s'.startTxn l (.clear x.robot) none (s.dropOf x.robot) .awaiting .clear
  | .halt => s'.startTxn l (.haltSingle x.robot) none (s.dropOf x.robot) .awaiting .halt

/-- Start the head of the normal list (R120): the DELIVER of an entry that holds both, leaving its READ at the head.
The member of a DELIVER becomes IN_FLIGHT (R117). A DELIVER without a member is discarded with its entry. -/
def startNormal (s : State) (l : LineNo) (x : NormalEntry) (rest : List NormalEntry) : State :=
  if x.deliver then
    let s' := s.modLine l fun e => { e with normal := if x.hasRead then { x with deliver := false } :: rest else rest }
    match s.member? x.robot with
    | none => s'
    | some m =>
      (s'.setDelivery x.robot .inFlight).startTxn l (.deliver x.robot) (some m.plan.body) (s.dropOf x.robot) .calling .call
  else
    (s.modLine l fun e => { e with normal := rest }).startTxn l (.read x.robot x.refresh x.readBack) none
      (s.dropOf x.robot) .calling .call

/-- The choice of the arbiter (R122): the HALT broadcast, the GO, the urgent head, the normal head, then the earliest
due poll. -/
def arbiterChoice (s : State) (l : LineNo) : State :=
  let e := s.line l
  if e.haltPending then
    (s.modLine l fun e => { e with haltPending := false }).startTxn l .haltAll none Config.broadcastDrop .sending .haltAll
  else
    match e.goPending with
    | some g =>
      (s.modLine l fun e => { e with goPending := none }).startTxn l (.go g) none Config.broadcastDrop .sending (.go g)
    | none =>
      match e.urgent with
      | x :: rest => startUrgent s l x rest
      | [] =>
        match e.normal with
        | x :: rest => startNormal s l x rest
        | [] =>
          match duePoll s.now e.cycle with
          | some p => s.startTxn l (.poll p.robot) none (s.dropOf p.robot) .awaiting .poll
          | none => s

/-- What is left of an abandoned transaction keeps the line busy: its frame is going out or its answer is arriving. An answer
only still to come does not, since a wait in progress is ended at once (R136). -/
def Residue.busy (ρ : Residue) : Bool :=
  match ρ.txn.phase with
  | .sending _ => true
  | .receiving _ _ => true
  | .waiting _ _ => false
  | .gap _ _ => false

/-- The engine may choose: it is IDLE, no frame or answer of an abandoned transaction is on the line, and the line has been
quiet for the T_GAP held (R122, R136, R137). -/
def Line.mayChoose (e : Line) (now : Nat) : Bool :=
  decide (e.state = .idle) && !e.residue.any Residue.busy && decide (e.lastChar + e.timing.tGap.toNat ≤ now)

/-- The arbiter at a moment (R122). -/
def arbiter (s : State) (l : LineNo) : State := if (s.line l).mayChoose s.now then arbiterChoice s l else s

/-! ### Ending a transaction and its attempts -/

/-- A transaction ends with a result: the engine is IDLE and the result is handed over (R118). -/
def finishTxn (s : State) (l : LineNo) (x : Txn) (en : TxnEnd) : State :=
  judgeEnd (s.freeEngine l) l x.kind x.stale en

/-- A transaction begun with a call has failed: the engine is ENDING and sends END after the quiet gap (R130). -/
def beginEnding (s : State) (l : LineNo) (x : Txn) : State :=
  s.setTxn l .ending { x with phase := .gap .endFrame 0 }

/-- An attempt at frame `f` ends without a final answer: the frame is sent again after the quiet gap, and not before a
time, while attempts remain; a call phase or body that failed goes to ENDING, a short transaction fails (R126 to
R128). -/
def attemptFailed (s : State) (l : LineNo) (x : Txn) (f : FrameKind) (notBefore : Nat) : State :=
  match f with
  | .call =>
    if x.calls < x.timing.nCall.toNat then s.setTxn l .calling { x with phase := .gap .call notBefore }
    else beginEnding s l x
  | .body _ => beginEnding s l x
  | .readRequest => beginEnding s l x
  | .clear => shortFailed
  | .halt => shortFailed
  | .poll => shortFailed
  | .endFrame => s
  | .go _ => s
  | .haltAll => s
where
  /-- The attempt of a short transaction (R128). -/
  shortFailed : State :=
    if x.calls < x.timing.nCall.toNat then s.setTxn l .awaiting { x with phase := .gap f notBefore }
    else finishTxn s l x (.failed false)

/-- A RETRY to a body uses the attempt (R127). -/
def retryBody (s : State) (l : LineNo) (x : Txn) : State :=
  if x.bodies < x.timing.nBody.toNat then s.setTxn l .awaiting { x with phase := .gap x.bodyFrame 0 }
  else beginEnding s l x

/-! ### Answers -/

/-- A frame can draw an answer (R117, R132). -/
def answerFits : FrameKind → Answer → Bool
  | .call, .ready => true
  | .call, .notReady => true
  | .body _, .accept => true
  | .body _, .retry => true
  | .body _, .refuse _ => true
  | .readRequest, .status _ _ _ _ _ _ => true
  | .clear, .accept => true
  | .clear, .refuse _ => true
  | .halt, .accept => true
  | .poll, .poll _ _ _ _ _ => true
  | _, _ => false

/-- An answer's state code, if it carries one, lies in 0–6 (R185). -/
def Answer.codeOk : Answer → Bool
  | .ready => true
  | .notReady => true
  | .accept => true
  | .retry => true
  | .refuse _ => true
  | .poll c _ _ _ _ => decide (c.toNat ≤ 6)
  | .status c _ _ _ _ _ => decide (c.toNat ≤ 6)

/-- A STATUS answer is complete in time: within T_READ + T_TURN of the read request (R131). -/
def inTime (t : Timing) (f : FrameKind) (since now : Nat) : Bool :=
  match f with
  | .readRequest => decide (now ≤ since + answerLimit t .readRequest)
  | .call => true
  | .body _ => true
  | .endFrame => true
  | .clear => true
  | .halt => true
  | .poll => true
  | .go _ => true
  | .haltAll => true

/-- An answer received to its end at `now` is valid for frame `f` (R131, R132, R185). -/
def answerValid (t : Timing) (f : FrameKind) (since now : Nat) (a : Answer) : Bool :=
  answerFits f a && a.codeOk && inTime t f since now

/-- What a valid answer to frame `f` does (R126 to R128). -/
def takeAnswer (s : State) (l : LineNo) (x : Txn) (f : FrameKind) : Answer → State
  | .ready => s.setTxn l .awaiting { x with phase := .gap x.bodyFrame 0 }
  | .notReady => attemptFailed s l x f (s.now + x.timing.tBody.toNat)
  | .accept => finishTxn s l x .accepted
  | .retry => retryBody s l x
  | .refuse c => finishTxn s l x (.refused c)
  | .poll c p c' w n => finishTxn s l x (.polled c (readBool p) c' w n)
  | .status c p c' _ h e => finishTxn s l x (.statused c (readBool p) c' ⟨h, e⟩)

/-- A garbled answer to frame `f` (R132, R133): it is counted, the silence count becomes 0 and the attempt is used. -/
def garbledAnswer (s : State) (l : LineNo) (x : Txn) (f : FrameKind) : State :=
  attemptFailed ((s.countGarbled l).heard l) l x f 0

/-- The answer of an abandoned transaction has come to its end (R136): it is counted when garbled and goes to no rule. -/
def residueAnswer (s : State) (l : LineNo) (valid : Bool) : State :=
  if valid then s.clearResidue l else (s.clearResidue l).countGarbled l

/-- The frame, with the end of its sending, whose answer is received to its end at `now`, if there is one (R131): an answer
that ANSWER_BEGUN has begun; or, in a wait, one that is complete within the limit, so that it began within it (log entry
6). -/
def Txn.answered? (x : Txn) (now : Nat) : Option (FrameKind × Nat) :=
  match x.phase with
  | .receiving f since => some (f, since)
  | .waiting f since => if now ≤ since + answerLimit x.timing f then some (f, since) else none
  | .gap _ _ => none
  | .sending _ => none

/-- An answer has been received to its end on line `l`; `none` is one that fails a condition of R132 whatever frame it
answers. With no exchange waiting, its characters are discarded (R122). -/
def receiveAnswer (s : State) (l : LineNo) (a : Option Answer) : State :=
  let s' := s.touchLine l
  let e := s.line l
  match e.residue with
  | some ρ =>
    match ρ.txn.answered? s.now with
    | some (f, since) => residueAnswer s' l (a.any (answerValid ρ.txn.timing f since s.now))
    | none => s'
  | none =>
    match e.txn with
    | none => s'
    | some x =>
      match x.answered? s.now with
      | some (f, since) => judgeAnswer s' x f since
      | none => s'
where
  /-- The answer judged for the frame it answers. -/
  judgeAnswer (s' : State) (x : Txn) (f : FrameKind) (since : Nat) : State :=
    match a with
    | none => garbledAnswer s' l x f
    | some a => if answerValid x.timing f since s.now a then takeAnswer (s'.heard l) l x f a else garbledAnswer s' l x f

/-- The drop that an answer on line `l` must carry: that of the transaction in flight, or of the abandoned one. -/
def Line.answerDrop (e : Line) : Byte :=
  match e.residue with
  | some ρ => ρ.txn.drop
  | none =>
    match e.txn with
    | some x => x.drop
    | none => 0

/-- An answer begun on line `l` is cut short, by a gap or by the deadline of a READ, and is garbled (R131). The last
character came at most four character times before. -/
def cutShort (s : State) (l : LineNo) (readOnly : Bool) : State :=
  let s' := s.modLine l fun e => { e with lastChar := max e.lastChar (s.now - Config.charGap) }
  let e := s.line l
  match e.residue with
  | some ρ =>
    match ρ.txn.phase with
    | .receiving f since => if readOnly && !overdue ρ.txn.timing f since then s else residueAnswer s' l false
    | .gap _ _ => s
    | .sending _ => s
    | .waiting _ _ => s
  | none =>
    match e.txn with
    | none => s
    | some x =>
      match x.phase with
      | .receiving f since => if readOnly && !overdue x.timing f since then s else garbledAnswer s' l x f
      | .gap _ _ => s
      | .sending _ => s
      | .waiting _ _ => s
where
  /-- A read request's STATUS answer has reached T_READ + T_TURN incomplete (R131). -/
  overdue (t : Timing) (f : FrameKind) (since : Nat) : Bool :=
    decide (f = .readRequest) && decide (since + answerLimit t .readRequest ≤ s.now)

/-- The phase of an exchange in which the first character of an answer arrives at `now`, if it ends a wait: it comes within the
limit (R131). -/
def Txn.begun? (x : Txn) (now : Nat) : Option Phase :=
  match x.phase with
  | .waiting f since => if now ≤ since + answerLimit x.timing f then some (.receiving f since) else none
  | .gap _ _ => none
  | .sending _ => none
  | .receiving _ _ => none

/-- The first character of an answer arrives on line `l` (R131): within the limit it ends the wait, or begins the answer to an
abandoned transaction (R136). Otherwise, as when nothing waits for it, it restarts the quiet time (R122). -/
def beginAnswer (s : State) (l : LineNo) : State :=
  let s' := s.touchLine l
  let e := s.line l
  match e.residue with
  | some ρ =>
    match ρ.txn.begun? s.now with
    | some ph => s'.setResidue l ρ ph
    | none => s'
  | none =>
    match e.txn with
    | none => s'
    | some x =>
      match x.begun? s.now with
      | some ph => s'.setTxn l e.state { x with phase := ph }
      | none => s'

/-! ### Silence and a line going DOWN -/

/-- Line `l` goes DOWN (R134): its work is emptied, LINE_DOWN is raised and its undecided members are decided (R113). -/
def lineDown (s : State) (l : LineNo) : State :=
  loseMembers
    ((s.modLine l fun e =>
      { e with state := .down, txn := none, urgent := [], normal := [], cycle := [], haltPending := false,
               goPending := none }).raise .lineDown (halfOf l.val)) l

/-- The wait for the answer to frame `f` ends in silence (R131, R133, R134). -/
def silentWait (s : State) (l : LineNo) (x : Txn) (f : FrameKind) : State :=
  let s' := s.countSilence l
  if x.timing.downLimit.toNat ≤ (s'.line l).silence then lineDown s' l else attemptFailed s' l x f 0

/-- No character has arrived on line `l` within the answer limit (R131). -/
def waitSilence (s : State) (l : LineNo) : State :=
  match (s.line l).txn with
  | none => s
  | some x =>
    match x.phase with
    | .waiting f since => if since + answerLimit x.timing f ≤ s.now then silentWait s l x f else s
    | .gap _ _ => s
    | .sending _ => s
    | .receiving _ _ => s

/-! ### Frames going out -/

/-- The last character of a frame awaiting an answer has gone out on line `l` (R131): the wait begins. The frame of an
abandoned transaction is completed; nothing waits for its answer, which is counted if it comes garbled (R136, R138). -/
def frameSent (s : State) (l : LineNo) : State :=
  let s' := s.touchLine l
  let e := s.line l
  match e.residue with
  | some ρ =>
    match ρ.txn.sendingFrame? with
    | some f => if f.awaits then s'.setResidue l ρ (.waiting f s.now) else s
    | none => s
  | none =>
    match e.txn with
    | none => s
    | some x =>
      match x.sendingFrame? with
      | some f => if f.awaits then s'.setTxn l e.state { x with phase := .waiting f s.now } else s
      | none => s

/-- The last character of a broadcast has gone out on line `l` (R129): it ends answered. -/
def broadcastEnds (s : State) (l : LineNo) : State :=
  let s' := s.touchLine l
  let e := s.line l
  match e.residue with
  | some ρ =>
    if ρ.txn.sendingFrame?.any FrameKind.isBroadcast then
      if ρ.handOver then judgeEnd (s'.clearResidue l) l ρ.txn.kind ρ.txn.stale .accepted else s'.clearResidue l
    else s
  | none =>
    match e.txn with
    | none => s
    | some x => if x.sendingFrame?.any FrameKind.isBroadcast then finishTxn s' l x .accepted else s

/-- The last character of an END frame has gone out on line `l` (R130): the transaction ends failed. -/
def endEnds (s : State) (l : LineNo) : State :=
  let s' := s.touchLine l
  let e := s.line l
  match e.residue with
  | some ρ => if ρ.txn.sendingFrame?.any FrameKind.isEnd then s'.clearResidue l else s
  | none =>
    match e.txn with
    | none => s
    | some x => if x.sendingFrame?.any FrameKind.isEnd then finishTxn s' l x (.failed false) else s

/-- A body frame: segment body, home body or read request. -/
def FrameKind.isBody : FrameKind → Bool
  | .body _ => true
  | .readRequest => true
  | .call => false
  | .endFrame => false
  | .clear => false
  | .halt => false
  | .poll => false
  | .go _ => false
  | .haltAll => false

/-- A frame other than END goes out within a transaction: it uses a call or body attempt, and counts as a retry when it
is sent again (R126 to R128, R138). -/
def sendFrame (s : State) (l : LineNo) (x : Txn) (f : FrameKind) : State :=
  let st := (s.line l).state
  if f.isBody then
    let s' := s.setTxn l st { x with phase := .sending f, bodies := x.bodies + 1 }
    if x.bodies = 0 then s' else s'.countRetry l
  else (s.setTxn l st { x with phase := .sending f, calls := x.calls + 1 }).countRetry l

/-- The quiet gap before a frame within a transaction has passed (R131). -/
def Line.gapPassed (e : Line) (x : Txn) (notBefore now : Nat) : Bool :=
  decide (e.lastChar + x.timing.tGap.toNat ≤ now) && decide (notBefore ≤ now)

/-- The engine sends its next frame: END when `ending`, otherwise the transaction's call, body or short frame, once the
quiet gap, and T_BODY after a NOT-READY, have passed (R126, R130, R131). -/
def nextFrame (s : State) (l : LineNo) (ending : Bool) : State :=
  let e := s.line l
  match e.txn with
  | none => s
  | some x =>
    match x.phase with
    | .gap f notBefore =>
      if e.gapPassed x notBefore s.now && decide (f.isEnd = ending) then
        if ending then s.setTxn l e.state { x with phase := .sending f } else sendFrame s l x f
      else s
    | .sending _ => s
    | .waiting _ _ => s
    | .receiving _ _ => s

/-! ### LINE_RESET and controller reset -/

/-- What abandoning a transaction leaves on the line (R136): a frame being sent is completed, an answer begun is
received to its end; a wait is ended at once, though its answer may still come and be counted; a frame not begun is not sent.
A broadcast ends as R129 gives under LINE_RESET (R135), and goes to no rule under controller reset (R141). -/
def Txn.residue (x : Txn) (lineReset : Bool) : Option Residue :=
  match x.phase with
  | .sending f => some ⟨x, lineReset && f.isBroadcast⟩
  | .receiving _ _ => some ⟨x, false⟩
  | .waiting _ _ => some ⟨x, false⟩
  | .gap _ _ => none

/-- What is left on a line after its transaction is abandoned. -/
def Line.residueAfter (e : Line) (lineReset : Bool) : Option Residue :=
  match e.residue with
  | some ρ => some { ρ with handOver := lineReset && ρ.handOver }
  | none =>
    match e.txn with
    | some x => x.residue lineReset
    | none => none

/-- A broadcast: it can no longer fail (R135). -/
def TxnKind.isBroadcast : TxnKind → Bool
  | .go _ => true
  | .haltAll => true
  | .deliver _ => false
  | .read _ _ _ => false
  | .clear _ => false
  | .haltSingle _ => false
  | .poll _ => false

/-- The transaction of an urgent entry. -/
def UrgentEntry.txnKind (x : UrgentEntry) : TxnKind :=
  match x.kind with
  | .clear => .clear x.robot
  | .halt => .haltSingle x.robot

/-- The transactions of a normal entry, the DELIVER first (R135). -/
def NormalEntry.txnKinds (x : NormalEntry) : List TxnKind :=
  (if x.deliver then [.deliver x.robot] else []) ++ (if x.hasRead then [.read x.robot x.refresh x.readBack] else [])

/-- The failures of a LINE_RESET on a line, in the order they are taken (R135): the transaction in flight, the urgent
list, the normal list. The flag says that the transaction was stale. -/
def Line.resetFailures (e : Line) : List (TxnKind × Bool) :=
  (match e.txn with
    | none => []
    | some x => if x.kind.isBroadcast then [] else [(x.kind, x.stale)]) ++
    e.urgent.map (fun x => (x.txnKind, false)) ++
    (e.normal.flatMap NormalEntry.txnKinds).map (fun k => (k, false))

/-- A line as a LINE_RESET leaves it before the failures are handed over (R135). DESIGN CHOICE (log entry 36): while a broadcast
goes out, R129 has the engine SENDING until its last character and step 3 of R135 moves it to IDLE from any state; the engine is
IDLE at once here, and the frame goes on as what is left of the transaction. -/
def Line.afterReset (e : Line) : Line :=
  { e with state := .idle, txn := none, residue := e.residueAfter true, urgent := [], normal := [], silence := 0 }

/-- LINE_RESET of line `l` (R135). -/
def resetLine (s : State) (l : LineNo) : State :=
  (s.line l).resetFailures.foldl (fun s k => judgeEnd s l k.1 k.2 (.failed true)) (s.modLine l Line.afterReset)

/-- The number of entries a LINE_RESET of line `l` fails (R135). -/
def resetCount (s : State) (l : LineNo) : Nat := (s.line l).urgent.length + (s.line l).normal.length

/-- A line as controller reset leaves it (R141). The engine is IDLE at once here too while a broadcast goes out (log entry 36). -/
def Line.afterControllerReset (e : Line) : Line :=
  { e with state := .idle, txn := none, residue := e.residueAfter false, urgent := [], normal := [], cycle := [],
           haltPending := true, goPending := none, silence := 0 }

end Sys2Proof.Machine
end

