-- ==== Sys2Proof/Machine/LineEvents.lean ====
section
/-!
DEFINITION. The events of the robot lines (chapter 6) and the overrun deadline (R103). Each reads the timer at its time (log
entry 4).
-/

namespace Sys2Proof.Machine

/-- LINE_ARBITER_CHOOSE (R122). -/
def execLineArbiterChoose (line : LineNo) (t : Time) (s : State) : Host.Outcome State Fault Refusal :=
  running s fun s => arbiter (s.clock t) line

/-- LINE_FRAME_SENT (R131). -/
def execLineFrameSent (line : LineNo) (t : Time) (s : State) : Host.Outcome State Fault Refusal :=
  running s fun s => frameSent (s.clock t) line

/-- BROADCAST_SENT (R129). -/
def execBroadcastSent (line : LineNo) (t : Time) (s : State) : Host.Outcome State Fault Refusal :=
  running s fun s => broadcastEnds (s.clock t) line

/-- NEXT_FRAME_SEND (R131). -/
def execNextFrameSend (line : LineNo) (t : Time) (s : State) : Host.Outcome State Fault Refusal :=
  running s fun s => nextFrame (s.clock t) line false

/-- END_FRAME_SEND (R130). -/
def execEndFrameSend (line : LineNo) (t : Time) (s : State) : Host.Outcome State Fault Refusal :=
  running s fun s => nextFrame (s.clock t) line true

/-- END_SENT (R130). -/
def execEndSent (line : LineNo) (t : Time) (s : State) : Host.Outcome State Fault Refusal :=
  running s fun s => endEnds (s.clock t) line

/-- ANSWER_READY (R126). -/
def execAnswerReady (line : LineNo) (t : Time) (s : State) : Host.Outcome State Fault Refusal :=
  running s fun s => receiveAnswer (s.clock t) line (some .ready)

/-- ANSWER_NOT_READY (R126). -/
def execAnswerNotReady (line : LineNo) (t : Time) (s : State) : Host.Outcome State Fault Refusal :=
  running s fun s => receiveAnswer (s.clock t) line (some .notReady)

/-- ANSWER_ACCEPT (R127). -/
def execAnswerAccept (line : LineNo) (t : Time) (s : State) : Host.Outcome State Fault Refusal :=
  running s fun s => receiveAnswer (s.clock t) line (some .accept)

/-- ANSWER_RETRY (R127). -/
def execAnswerRetry (line : LineNo) (t : Time) (s : State) : Host.Outcome State Fault Refusal :=
  running s fun s => receiveAnswer (s.clock t) line (some .retry)

/-- ANSWER_REFUSE (R127). -/
def execAnswerRefuse (line : LineNo) (t : Time) (fault : Byte) (s : State) : Host.Outcome State Fault Refusal :=
  running s fun s => receiveAnswer (s.clock t) line (some (.refuse fault))

/-- ANSWER_POLL (R96). -/
def execAnswerPoll (line : LineNo) (t : Time) (code posOk fault : Byte) (wave remaining : Half) (s : State) :
    Host.Outcome State Fault Refusal :=
  running s fun s => receiveAnswer (s.clock t) line (some (.poll code posOk fault wave remaining))

/-- ANSWER_STATUS (R105). -/
def execAnswerStatus (line : LineNo) (t : Time) (code posOk fault : Byte) (wave : Half) (hub elbow : Word) (s : State) :
    Host.Outcome State Fault Refusal :=
  running s fun s => receiveAnswer (s.clock t) line (some (.status code posOk fault wave hub elbow))

/-- ANSWER_GARBLED (R132): the bytes received, judged for the drop addressed (log entry 15). -/
def execAnswerGarbled (line : LineNo) (t : Time) (bytes : List Byte) (s : State) : Host.Outcome State Fault Refusal :=
  running s fun s => receiveAnswer (s.clock t) line (readAnswer (s.line line).answerDrop bytes)

/-- ANSWER_WAIT_SILENCE (R131). -/
def execAnswerWaitSilence (line : LineNo) (t : Time) (s : State) : Host.Outcome State Fault Refusal :=
  running s fun s => waitSilence (s.clock t) line

/-- ANSWER_CHAR_GAP (R131). -/
def execAnswerCharGap (line : LineNo) (t : Time) (s : State) : Host.Outcome State Fault Refusal :=
  running s fun s => cutShort (s.clock t) line false

/-- READ_ANSWER_DEADLINE (R131). -/
def execReadAnswerDeadline (line : LineNo) (t : Time) (s : State) : Host.Outcome State Fault Refusal :=
  running s fun s => cutShort (s.clock t) line true

/-- STRAY_CHARACTER (R122). -/
def execStrayCharacter (line : LineNo) (t : Time) (s : State) : Host.Outcome State Fault Refusal :=
  running s fun s => (s.clock t).touchLine line

/-- ANSWER_BEGUN (R131). -/
def execAnswerBegun (line : LineNo) (t : Time) (s : State) : Host.Outcome State Fault Refusal :=
  running s fun s => beginAnswer (s.clock t) line

/-- OVERRUN_DEADLINE (R103). -/
def execOverrunDeadline (robot : RobotNo) (t : Time) (s : State) : Host.Outcome State Fault Refusal :=
  running s fun s => overrunExpired (s.clock t) robot

end Sys2Proof.Machine
end

