-- ==== Sys2Proof/Machine/Records.lean ====
section
/-!
DEFINITION. The records a READ, REPORT or STATUS returns (10.4, 10.5), from the state held when the request is taken.
-/

namespace Sys2Proof.Machine

/-! ### Loadable records (10.4) -/

/-- A link slot of 14 bytes. -/
def linkBytes (k : Link) : List Byte := le16 (halfOf k.zone.val) ++ le32 k.ws ++ le32 k.we ++ le32 k.thr

/-- Six link slots; those beyond the link count read zero (R184). -/
def linkSlots (ks : List Link) : List Byte :=
  (ks.take Config.linksMax).flatMap linkBytes ++ List.replicate ((Config.linksMax - ks.length) * 14) 0

/-- A line code. -/
def lineCode (l : LineNo) : Byte := byteOf l.val

/-- A ROBOT record of 152 bytes. -/
def robotBytes (b : RobotStatic) : List Byte :=
  [boolByte b.present, lineCode b.line, b.drop, recordFlags b, b.hubCurve, b.elbowCurve] ++
    le32 b.gearHub ++ le32 b.gearElbow ++ le32 b.coupling ++ le32 b.offHub ++ le32 b.offElbow ++
    le32 b.hubMin ++ le32 b.hubMax ++ le32 b.elbowMin ++ le32 b.elbowMax ++
    [b.fenceMode.code, byteOf b.links.length] ++ le32 b.fs ++ le32 b.fe ++ pairBytes b.homeAngles ++
    pairBytes b.homeSteps ++ linkSlots b.links

/-- A CURVE record of 34 bytes. -/
def curveBytes (c : Curve) : List Byte := c.toList.flatMap le16

/-- A PROFILE record of 12 bytes. -/
def profileBytes (p : Profile) : List Byte :=
  le16 p.vHub ++ le16 p.vElbow ++ le16 p.nMin ++ le16 p.grace ++ le32 p.homeLimit

/-- A ZONE record of 4 bytes. -/
def zoneBytes (e : Zone) : List Byte := le16 (robotField e.memberA) ++ le16 (robotField e.memberB)

/-- A LINE_TIMING record of 18 bytes, its last byte zero. -/
def timingBytes (t : Timing) : List Byte :=
  le16 t.tCall ++ le16 t.tBody ++ le16 t.tShort ++ le16 t.tRead ++ le16 t.tTurn ++ le16 t.tGap ++ [t.nCall, t.nBody] ++
    le16 t.pollPeriod ++ [t.downLimit, 0]

/-- The EPOCH record of 13 bytes (R152). -/
def epochBytes (e : Epoch) : List Byte := e.mode.code :: (le32 e.period ++ le32 e.window ++ le32 e.running)

/-! ### Read-only records (10.5) -/

/-- Robot `r`'s member of the active wave, decided or not (10.5): a member of a DONE wave is not reported. -/
def State.reportedMember (s : State) (r : RobotNo) : Option (Half × Member) :=
  match s.wave with
  | none => none
  | some w =>
    if w.state.active then
      match w.members.find? fun m => m.robot = r with
      | some m => some (w.number, m)
      | none => none
    else none

/-- Kind of robot `r`'s open-wave record, 0 for none. -/
def State.openKind (s : State) (r : RobotNo) : Byte :=
  match s.openWave.find? fun m => m.robot = r with
  | some m => m.what.kind.code
  | none => 0

/-- Deferral count and last reason of robot `r`'s deferred entry, 0 for none. -/
def State.deferredFields (s : State) (r : RobotNo) : List Byte :=
  match s.deferred.find? fun d => d.record.robot = r with
  | some d => [byteOf d.count, Reason.zone.code]
  | none => [0, 0]

/-- Kind, wave number and remaining intervals of robot `r`'s member of the active wave, 0 for none; the remaining
intervals are 0 unless the robot is MOVING. -/
def State.memberFields (s : State) (r : RobotNo) : List Byte :=
  match s.reportedMember r with
  | some (n, m) => m.kind.code :: (le16 n ++ le16 (if (s.robot r).slot = .moving then m.remaining else 0))
  | none => [0, 0, 0, 0, 0]

/-- The robot state record of an ABSENT robot: every field zero or none, but slot state, last outcome and last reason
(R17). -/
def absentStateBytes (b : Robot) : List Byte :=
  List.replicate 4 0 ++ [b.slot.code] ++ List.replicate 29 0 ++ [b.lastOutcome.code, b.lastReason.code] ++
    List.replicate 8 0

/-- A ROBOT_STATE record of 44 bytes (R17). -/
def robotStateBytes (s : State) (r : RobotNo) : List Byte :=
  let b := s.robot r
  if b.slot = .absent then absentStateBytes b
  else
    [boolByte b.static.present, lineCode b.static.line, b.static.drop, recordFlags b.static, b.slot.code, b.rest.code,
      boolByte (decide (b.slot = .idle)), boolByte b.reportedValid] ++
      positionBytes b.believed ++ pairBytes b.reported ++
      [b.fault, byteOf b.stack.length, b.lastOutcome.code, b.lastReason.code, s.openKind r] ++
      s.deferredFields r ++ s.memberFields r

/-- The four stack entries of a REPORT reply, top first; a slot beyond the depth reads zero (10.3), and so does every
slot of an ABSENT robot (R17). -/
def stackBytes (b : Robot) : List Byte :=
  if b.slot = .absent then List.replicate 64 0
  else
    (b.stack.take Config.stackDepth).flatMap positionBytes ++
      List.replicate ((Config.stackDepth - b.stack.length) * 16) 0

/-- The payload of a REPORT reply, 108 bytes (R17). -/
def reportBytes (s : State) (r : RobotNo) : List Byte := robotStateBytes s r ++ stackBytes (s.robot r)

/-- A ZONE_STATE record of 7 bytes (R60). -/
def zoneStateBytes (e : Zone) : List Byte :=
  le16 (robotField e.memberA) ++ le16 (robotField e.memberB) ++ [e.holder.code] ++ le16 (robotField e.holder.robot?)

/-- Target angles, target steps and clamped flags of a deferred entry, zero for a RETRACE or HOME. -/
def moveBytes : MoveWhat → List Byte
  | .goto g => pairBytes g.angles ++ pairBytes g.steps ++ [replyFlags g.hubClamped g.elbowClamped false]
  | .retrace => List.replicate 17 0
  | .home => List.replicate 17 0

/-- A DEFERRED record of 23 bytes; a position beyond the list reads FFFFh and zeros (R67). -/
def deferredBytes : Option Deferral → List Byte
  | none => [0xFF, 0xFF] ++ List.replicate 21 0
  | some d =>
    le16 (halfOf d.record.robot.val) ++
      [d.record.what.kind.code, byteOf d.record.profile.val, byteOf d.count, Reason.zone.code] ++ moveBytes d.record.what

/-- The reason codes of 10.6: 0–3, 5–27 and 32–35. -/
def reasonCodes : List Byte := (List.range 4 ++ List.range' 5 23 ++ List.range' 32 4).map byteOf

/-- The field of a free number that may hold the values of a list: one of them (R182). -/
def freeIn (values : List Byte) (free : Nat) : Byte := values.getD (free % values.length) 0

/-- A one-byte field of a free number with the values `low` to `high`. -/
def freeByte (low high : Nat) (free : Nat) : Byte := byteOf (low + free % (high - low + 1))

/-- A commit count from a free number: a commit has at most 480 candidates, one a robot (R63). -/
def freeCount (free : Nat) : Half := halfOf (free % 481)

/-- The wave summary with no record: wave number 0, state NONE and member count 0 (R89), start mark and undecided count 0 as
STATUS reads them (R169). The rest is free within what the fields may hold, so that a code sent is a defined one (R182, log
entry 14). -/
def emptySummary : List Byte :=
  let free := Config.unstatedSummary
  le16 0 ++ [0, freeByte 1 2 (free 3)] ++ le32 0 ++ [freeByte 1 255 (free 8), freeByte 0 7 (free 9), freeByte 1 255 (free 10)] ++
    le16 (freeCount (free 11)) ++ le16 (freeCount (free 13)) ++ le16 (freeCount (free 15)) ++ le16 (freeCount (free 17)) ++
    le16 0 ++ le16 0

/-- The wave summary of 23 bytes (R89). -/
def waveSummary : Option Wave → List Byte
  | none => emptySummary
  | some w =>
    le16 w.number ++ [w.state.code, w.origin.code] ++ le32 w.startMark ++ [w.lead, w.chainRemaining, w.chainLead] ++
      le16 (halfOf w.counts.admitted) ++ le16 (halfOf w.counts.deferred) ++ le16 (halfOf w.counts.dropped) ++
      le16 (halfOf w.counts.null) ++ le16 (halfOf w.members.length) ++ le16 (halfOf w.undecided)

/-- Position `i` beyond the members reads robot none (R89). The 12 bytes after it are free within what the fields may hold, so
that a code sent is a defined one (R182, log entry 29). -/
def emptyPosition (i : Nat) : List Byte :=
  let free := Config.unstatedEntry i
  le16 (robotField none) ++
    [freeByte 0 3 (free 2), freeByte 0 3 (free 3), byteOf (free 4), freeByte 0 6 (free 5), freeByte 1 5 (free 6),
      freeByte 0 1 (free 7), freeByte 0 12 (free 8), freeIn reasonCodes (free 9)] ++
    le16 (halfOf (free 10)) ++ le16 (halfOf (free 12))

/-- The WAVE member entry of 14 bytes at position `i` (R89). -/
def memberBytes (i : Nat) : Option Member → List Byte
  | none => emptyPosition i
  | some m =>
    le16 (halfOf m.robot.val) ++
      [m.kind.code, lineCode m.line, m.drop, m.rest.code, m.delivery.code, boolByte m.late, m.outcome.code,
        m.reason.code] ++ le16 m.plan.n ++ le16 m.remaining

/-- A line block of 13 bytes (10.5). -/
def lineBlock (e : Line) : List Byte :=
  [e.state.code, byteOf e.urgent.length, byteOf e.normal.length, byteOf e.cycle.length, broadcastFlags e] ++
    le16 e.counters.transactions ++ le16 e.counters.retries ++ le16 e.counters.timeouts ++ le16 e.counters.garbled

/-- The wave fields of the status record: number, state, start mark, undecided count (R169). -/
def statusWave : Option Wave → List Byte
  | none => List.replicate 9 0
  | some w => le16 w.number ++ [w.state.code] ++ le32 w.startMark ++ le16 (halfOf w.undecided)

/-- The status record of 93 bytes (R169). -/
def statusBytes (s : State) : List Byte :=
  le16 (halfOf s.openWave.length) ++ [byteOf s.deferred.length] ++ statusWave s.wave ++ le32 s.epoch.counter ++
    [s.epoch.lock.code] ++ le32 s.epoch.offset ++ s.lines.toList.flatMap lineBlock ++ le16 s.trunk.badCheck ++
    le16 s.trunk.overrun ++ le16 s.trunk.gapAbandoned ++ [byteOf s.trunk.queue.length] ++
    s.events.recs.toList.map EventRec.count ++ [maskByte s.events.masks, s.events.attention]

/-! ### Runs of records (R167) -/

/-- The indices of a run: `count` from `first` on. -/
def runOf (first count : Nat) : List Nat := (List.range count).map fun i => first + i

/-- Index range and record size of a readable table kind (R164, 10.4). -/
def readShape (table : Byte) : Option (Nat × Nat) :=
  match table.toNat with
  | 1 => some (480, 152)
  | 2 => some (256, 34)
  | 3 => some (16, 12)
  | 4 => some (1024, 4)
  | 5 => some (4, 18)
  | 6 => some (1, 13)
  | 7 => some (480, 44)
  | 8 => some (1024, 7)
  | 9 => some (64, 23)
  | 10 => some (480, 14)
  | _ => none

/-- The size of what a READ returns before its records: the wave summary for kind WAVE (R167). -/
def readLead (table : Byte) : Nat := if table.toNat = 10 then 23 else 0

/-- The record at an index of a readable table, within the table's range. -/
def recordAt (s : State) (table : Byte) (i : Nat) : List Byte :=
  match table.toNat with
  | 1 => match index? 480 i with | some r => robotBytes (s.robot r).static | none => []
  | 2 => match index? 256 i with | some c => curveBytes s.curves[c] | none => []
  | 3 => match index? 16 i with | some p => profileBytes (s.profile p) | none => []
  | 4 => match index? 1024 i with | some z => zoneBytes (s.zone z) | none => []
  | 5 => match index? 4 i with | some l => timingBytes (s.line l).timing | none => []
  | 6 => epochBytes s.epoch
  | 7 => match index? 480 i with | some r => robotStateBytes s r | none => []
  | 8 => match index? 1024 i with | some z => zoneStateBytes (s.zone z) | none => []
  | 9 => deferredBytes s.deferred[i]?
  | 10 => memberBytes i s.members[i]?
  | _ => []

/-- The payload of a READ that has passed its checks (R167). -/
def readPayload (s : State) (table : Byte) (first count : Nat) : List Byte :=
  (if table.toNat = 10 then waveSummary s.wave else []) ++ (runOf first count).flatMap (recordAt s table)

end Sys2Proof.Machine
end

