-- ==== Sys2Proof/Machine/Loads.lean ====
section
/-!
DEFINITION. The loads of the six loadable tables (R165, R166): each examines every record of the frame before it changes
any state, then applies the whole frame or none of it.
-/

namespace Sys2Proof.Machine

/-- What a request answers: the state it leaves, the reply's status and payload (R160). -/
structure Served where
  state : State
  status : Status
  payload : List Byte
  deriving DecidableEq, Repr

/-- A reply of status ERROR: nothing changes (R160, R183). -/
def Served.error (s : State) (why : Reason) : Served := ⟨s, .error, [why.code]⟩

/-- A reply of status REFUSED with a detail: nothing changes (R160, R183). -/
def Served.refused (s : State) (why : Reason) (detail : Nat) : Served := ⟨s, .refused, why.code :: le16 (halfOf detail)⟩

/-- Table size and record size of a loadable table kind (R164, R165, 10.4). -/
def loadShape (table : Byte) : Option (Nat × Nat) :=
  match table.toNat with
  | 1 => some (480, 152)
  | 2 => some (256, 34)
  | 3 => some (16, 12)
  | 4 => some (1024, 4)
  | 5 => some (4, 18)
  | 6 => some (1, 13)
  | _ => none

/-- Record `i` of a run of records of a size. -/
def recordOf (records : List Byte) (size i : Nat) : List Byte := (records.drop (i * size)).take size

/-- The records of a frame. -/
def recordsOf (records : List Byte) (size count : Nat) : List (List Byte) :=
  (List.range count).map (recordOf records size)

/-! ### ROBOT -/

/-- A link slot as loaded. -/
structure RawLink where
  zone : Half
  ws : Word
  we : Word
  thr : Word
  deriving DecidableEq, Repr

/-- A ROBOT record as loaded (10.4), before it is examined. The links are those of the first slots, up to the link
count; the slots beyond it are not taken (R184). -/
structure RawRobot where
  present : Bool
  line : Byte
  drop : Byte
  flags : Byte
  hubCurve : Byte
  elbowCurve : Byte
  gearHub : Word
  gearElbow : Word
  coupling : Word
  offHub : Word
  offElbow : Word
  hubMin : Word
  hubMax : Word
  elbowMin : Word
  elbowMax : Word
  fenceMode : Byte
  linkCount : Byte
  fs : Word
  fe : Word
  homeAngles : Pair
  homeSteps : Pair
  links : List RawLink
  deriving DecidableEq, Repr

/-- Link slot `i` of a record. -/
def rawLink (bs : List Byte) (i : Nat) : RawLink :=
  let o := 68 + 14 * i
  ⟨u16 bs o, u32 bs (o + 2), u32 bs (o + 6), u32 bs (o + 10)⟩

/-- A ROBOT record read from its 152 bytes (10.4). -/
def rawRobot (bs : List Byte) : RawRobot :=
  { present := readBool (u8 bs 0), line := u8 bs 1, drop := u8 bs 2, flags := u8 bs 3, hubCurve := u8 bs 4,
    elbowCurve := u8 bs 5, gearHub := u32 bs 6, gearElbow := u32 bs 10, coupling := u32 bs 14, offHub := u32 bs 18,
    offElbow := u32 bs 22, hubMin := u32 bs 26, hubMax := u32 bs 30, elbowMin := u32 bs 34, elbowMax := u32 bs 38,
    fenceMode := u8 bs 42, linkCount := u8 bs 43, fs := u32 bs 44, fe := u32 bs 48,
    homeAngles := ⟨u32 bs 52, u32 bs 56⟩, homeSteps := ⟨u32 bs 60, u32 bs 64⟩,
    links := (List.range (min (u8 bs 43).toNat Config.linksMax)).map (rawLink bs) }

/-- An angle lies in the hub range. -/
def inHub (w : Word) : Bool := decide (Config.hubLow ≤ w.toInt) && decide (w.toInt ≤ Config.hubHigh)

/-- An angle lies in the elbow range. -/
def inElbow (w : Word) : Bool := decide (Config.elbowLow ≤ w.toInt) && decide (w.toInt ≤ Config.elbowHigh)

/-- A link as stored; its zone id has passed R5. -/
def linkOf (k : RawLink) : Option Link :=
  match index? 1024 k.zone.toNat with
  | some z => some ⟨z, k.ws, k.we, k.thr⟩
  | none => none

/-- The static fields a record gives its robot: as loaded, or zero when present is no (R1, R6). Its codes have passed
R5. -/
def RawRobot.static (x : RawRobot) : RobotStatic :=
  if x.present then
    { present := true, line := (index? 4 x.line.toNat).getD 0, drop := x.drop, enable := flagBit x.flags 0,
      priority := flagBit x.flags 1, hubCurve := x.hubCurve, elbowCurve := x.elbowCurve, gearHub := x.gearHub,
      gearElbow := x.gearElbow, coupling := x.coupling, offHub := x.offHub, offElbow := x.offElbow,
      hubMin := x.hubMin, hubMax := x.hubMax, elbowMin := x.elbowMin, elbowMax := x.elbowMax,
      fenceMode := (fenceMode? x.fenceMode).getD .off, fs := x.fs, fe := x.fe, homeAngles := x.homeAngles,
      homeSteps := x.homeSteps, links := x.links.filterMap linkOf }
  else RobotStatic.absent

/-- BADADDR (R5). DESIGN CHOICE (log entry 32): R2 and R5 name drop 0 and drops 121–127; a drop byte of 128–255, which is no drop
of table 1.1 either, fails this test too. -/
def RawRobot.badAddr (x : RawRobot) : Bool :=
  decide (4 ≤ x.line.toNat) || decide (x.drop.toNat = 0) || decide (120 < x.drop.toNat)

/-- A record of the load at the same address (R5). -/
def RawRobot.sameAddress (x y : RawRobot) : Bool := y.present && decide (y.line = x.line) && decide (y.drop = x.drop)

/-- A held record, present, at the same address (R5). -/
def RawRobot.heldAddress (x : RawRobot) (b : RobotStatic) : Bool :=
  b.present && decide (b.line.val = x.line.toNat) && decide (b.drop = x.drop)

/-- DUPLICATE for a record of the range (R5): the records before it in the load, and the present records outside the
range. Of two records of one load at one address, the one with the higher robot number fails. -/
def duplicateAddr (s : State) (first count : Nat) (before : List RawRobot) (x : RawRobot) : Bool :=
  before.any x.sameAddress ||
    !(indicesFrom (fun i b => !(decide (first ≤ i) && decide (i < first + count)) && x.heldAddress b.static) 0
      s.robots.toList).isEmpty

/-- BADLIMIT (R5). -/
def RawRobot.badLimit (x : RawRobot) : Bool :=
  !inHub x.hubMin || !inHub x.hubMax || !inElbow x.elbowMin || !inElbow x.elbowMax ||
    decide (x.hubMax.toInt < x.hubMin.toInt) || decide (x.elbowMax.toInt < x.elbowMin.toInt) ||
    (fenceMode? x.fenceMode).isNone || !inHub x.fs || !inHub x.fe

/-- BADGEAR (R5). -/
def RawRobot.badGear (x : RawRobot) : Bool :=
  decide (Config.gearMax < x.gearHub.toNat) || decide (Config.gearMax < x.gearElbow.toNat) ||
    decide (x.coupling.toInt < -Config.couplingMax) || decide (Config.couplingMax < x.coupling.toInt)

/-- A link is bad for robot number `r` (R5): its zone id, window or threshold is out of range, or the zone's entry does
not list the robot. -/
def badLinkFor (s : State) (r : Nat) (k : RawLink) : Bool :=
  !inHub k.ws || !inHub k.we || !inElbow k.thr ||
    match index? 1024 k.zone.toNat with
    | none => true
    | some z => !((s.zone z).memberA.any (fun m => m.val = r) || (s.zone z).memberB.any fun m => m.val = r)

/-- Two links of a list name the same zone. -/
def repeatsZone : List RawLink → Bool
  | [] => false
  | k :: ks => ks.any (fun y => y.zone = k.zone) || repeatsZone ks

/-- BADLINK (R5). -/
def RawRobot.badLink (s : State) (r : Nat) (x : RawRobot) : Bool :=
  decide (Config.linksMax < x.linkCount.toNat) || x.links.any (badLinkFor s r) || repeatsZone x.links

/-- BADHOME (R5). -/
def RawRobot.badHome (x : RawRobot) : Bool :=
  decide (x.homeAngles.hub.toInt < x.hubMin.toInt) || decide (x.hubMax.toInt < x.homeAngles.hub.toInt) ||
    decide (x.homeAngles.elbow.toInt < x.elbowMin.toInt) || decide (x.elbowMax.toInt < x.homeAngles.elbow.toInt) ||
    forbidden x.static x.homeAngles.hub.toInt ||
    x.links.any fun k => decide (k.thr.toInt ≤ x.homeAngles.elbow.toInt)

/-- The tests of R5 on one record, in their order; a record whose present field is no is not tested. -/
def robotRecordFault (s : State) (first count : Nat) (before : List RawRobot) (r : Nat) (x : RawRobot) : Option Reason :=
  if x.present = false then none
  else if x.badAddr then some .badAddr
  else if duplicateAddr s first count before x then some .duplicate
  else if x.badLimit then some .badLimit
  else if x.badGear then some .badGear
  else if x.badLink s r then some .badLink
  else if x.badHome then some .badHome
  else none

/-- The first failure among the records from robot number `r` on, with the robot number that fails (R5). -/
def robotRangeFault (s : State) (first count : Nat) (before : List RawRobot) (r : Nat) :
    List RawRobot → Option (Reason × Nat)
  | [] => none
  | x :: xs =>
    match robotRecordFault s first count before r x with
    | some why => some (why, r)
    | none => robotRangeFault s first count (before ++ [x]) (r + 1) xs

/-- The robot numbers of a range. -/
def robotsIn (first count : Nat) : List RobotNo := (runOf first count).filterMap (index? 480)

/-- The first robot of a range in a wave state (R5). -/
def lockedRobot (s : State) (first count : Nat) : Option RobotNo :=
  (robotsIn first count).find? fun r => (s.robot r).slot.inWave

/-- One record of a ROBOT load applied (R6). -/
def applyRobot (s : State) (r : RobotNo) (b : RobotStatic) : State :=
  (s.withdraw r).modRobot r fun x =>
    { x with
      static := b, slot := if b.present then .uncertain else .absent, believed := Position.zero, reported := Pair.zero,
      reportedValid := false, fault := 0, stack := [], rest := .uncertain }

/-- Number a range, and the records written to it. -/
def applyRobots (s : State) (records : List (RobotNo × RobotStatic)) : State :=
  records.foldl (fun s x => applyRobot s x.1 x.2) s

/-- The robot a transaction addresses. -/
def TxnKind.robot? : TxnKind → Option RobotNo
  | .deliver r => some r
  | .read r _ _ => some r
  | .clear r => some r
  | .haltSingle r => some r
  | .poll r => some r
  | .go _ => none
  | .haltAll => none

/-- A transaction for a robot that satisfies `p` is stale from now on (R7). -/
def Txn.staleFor (x : Txn) (p : RobotNo → Bool) : Txn := if x.kind.robot?.any p then { x with stale := true } else x

/-- The line work that a ROBOT load of the robots that satisfy `p` removes (R7): READs, HALT singles, and the storing of
what is in flight. -/
def Line.dropStale (e : Line) (p : RobotNo → Bool) : Line :=
  { e with
    normal := dropReads e.normal p
    urgent := e.urgent.filter fun x => !(p x.robot && decide (x.kind = .halt))
    txn := e.txn.map fun x => x.staleFor p }

/-- A zone entry names a robot of a range. -/
def Zone.namesIn (e : Zone) (first count : Nat) : Bool :=
  e.memberA.any (fun r => decide (first ≤ r.val) && decide (r.val < first + count)) ||
    e.memberB.any fun r => decide (first ≤ r.val) && decide (r.val < first + count)

/-- A LOAD of kind ROBOT that has passed R165 (R5 to R7). -/
def loadRobots (s : State) (first count : Nat) (records : List (List Byte)) : Served :=
  let raws := records.map rawRobot
  match lockedRobot s first count with
  | some r => Served.refused s .locked r.val
  | none =>
    match robotRangeFault s first count [] first raws with
    | some (why, r) => Served.refused s why r
    | none =>
      let rs := robotsIn first count
      let withdrawn := (rs.filter fun r => s.inOpen r || s.inDeferred r).length
      let s1 := applyRobots s (rs.zip (raws.map RawRobot.static))
      let s2 := s1.modLines fun e => e.dropStale fun r => decide (first ≤ r.val) && decide (r.val < first + count)
      let s3 := s2.settle fun _ e => e.namesIn first count
      ⟨s3, .ok, le16 (halfOf count) ++ le16 (halfOf withdrawn)⟩

/-! ### CURVE -/

/-- A knot clamped to −8192 to +8191 (R22). -/
def clampKnot (h : Half) : Half := BitVec.ofInt 16 (clampInt (-8192) 8191 h.toInt)

/-- The knots of a CURVE record as loaded (10.4). -/
def rawCurve (bs : List Byte) : Curve := Vector.ofFn fun i => u16 bs (2 * i.val)

/-- A curve with its knots clamped (R22). -/
def clampCurve (c : Curve) : Curve := mapTable (fun _ h => clampKnot h) c

/-- Write consecutive entries of a table from an index on; entries outside the table are not written. -/
def writeRun {α : Type} {n : Nat} (v : Vector α n) (first : Nat) : List α → Vector α n
  | [] => v
  | a :: as => writeRun (match index? n first with | some i => v.set i a | none => v) (first + 1) as

/-- The reply of a load that clamps: CLAMPED when a value was clamped, OK otherwise (R166). -/
def clampStatus (clamped : Bool) : Status := if clamped then .clamped else .ok

/-- A LOAD of kind CURVE (R22). -/
def loadCurves (s : State) (first count : Nat) (records : List (List Byte)) : Served :=
  let raws := records.map rawCurve
  let cs := raws.map clampCurve
  ⟨{ s with curves := writeRun s.curves first cs }, clampStatus (decide (cs ≠ raws)), le16 (halfOf count)⟩

/-! ### PROFILE -/

/-- A PROFILE record as loaded (10.4). -/
def rawProfile (bs : List Byte) : Profile := ⟨u16 bs 0, u16 bs 2, u16 bs 4, u16 bs 6, u32 bs 8⟩

/-- A profile with each field brought into its range (R23, R24). -/
def clampProfile (p : Profile) : Profile :=
  { vHub := clampHalf 1 4095 p.vHub, vElbow := clampHalf 1 4095 p.vElbow, nMin := clampHalf 1 1000 p.nMin,
    grace := clampHalf 0 10000 p.grace, homeLimit := clampWord 1000 120000 p.homeLimit }

/-- A LOAD of kind PROFILE (R24). -/
def loadProfiles (s : State) (first count : Nat) (records : List (List Byte)) : Served :=
  let raws := records.map rawProfile
  let ps := raws.map clampProfile
  ⟨{ s with profiles := writeRun s.profiles first ps }, clampStatus (decide (ps ≠ raws)), le16 (halfOf count)⟩

/-! ### ZONE -/

/-- A member field as loaded: a robot number, none (FFFFh), or neither (R182). -/
def memberField (h : Half) : Option (Option RobotNo) :=
  if h = 0xFFFF then some none
  else
    match index? 480 h.toNat with
    | some r => some (some r)
    | none => none

/-- A present robot other than the new members links to zone `z` (R58). -/
def orphanLink (s : State) (z : Nat) (a b : Option RobotNo) : Bool :=
  !(indicesFrom
      (fun i x =>
        x.static.present && x.static.links.any (fun k => k.zone.val = z) && !(a.any fun r => r.val = i) &&
          !(b.any fun r => r.val = i))
      0 s.robots.toList).isEmpty

/-- The members a ZONE record gives its entry, if it passes the tests of R58. -/
def zoneMembers (s : State) (z : Nat) (bs : List Byte) : Option (Option RobotNo × Option RobotNo) :=
  match memberField (u16 bs 0), memberField (u16 bs 2) with
  | some a, some b =>
    if (a.isSome && decide (a = b)) || orphanLink s z a b then none else some (a, b)
  | _, _ => none

/-- The members of the records from zone id `z` on, or the zone id of the first record that fails (R58). -/
def zoneRange (s : State) (z : Nat) : List (List Byte) → Except Nat (List (Option RobotNo × Option RobotNo))
  | [] => .ok []
  | x :: xs =>
    match zoneMembers s z x with
    | none => .error z
    | some m =>
      match zoneRange s (z + 1) xs with
      | .error e => .error e
      | .ok ms => .ok (m :: ms)

/-- An entry is held MOVING (R58). -/
def Zone.isMoving (e : Zone) : Bool :=
  match e.holder with
  | .moving _ => true
  | .free => false
  | .parked _ => false
  | .blocked => false

/-- The lowest zone id of a range that is held MOVING (R58). -/
def lockedZone (s : State) (first count : Nat) : Option ZoneId :=
  ((runOf first count).filterMap (index? 1024)).find? fun z => (s.zone z).isMoving

/-- Entry `i` with the members that a run from `first` on gives it. -/
def withMembers (s : State) (first : Nat) (ms : List (Option RobotNo × Option RobotNo)) (i : Nat) (e : Zone) : Zone :=
  if first ≤ i then
    match ms[i - first]? with
    | some m => s.renamed e m.1 m.2
    | none => e
  else e

/-- A LOAD of kind ZONE that has passed R165 (R58, R59). -/
def loadZones (s : State) (first count : Nat) (records : List (List Byte)) : Served :=
  match lockedZone s first count with
  | some z => Served.refused s .locked z.val
  | none =>
    match zoneRange s first records with
    | .error z => Served.refused s .badLink z
    | .ok ms =>
      let s1 := { s with zones := mapTable (withMembers s first ms) s.zones }
      ⟨s1.settle fun i _ => decide (first ≤ i) && decide (i < first + count), .ok, le16 (halfOf count)⟩

/-! ### LINE_TIMING -/

/-- A LINE_TIMING record as loaded (10.4). -/
def rawTiming (bs : List Byte) : Timing :=
  { tCall := u16 bs 0, tBody := u16 bs 2, tShort := u16 bs 4, tRead := u16 bs 6, tTurn := u16 bs 8, tGap := u16 bs 10,
    nCall := u8 bs 12, nBody := u8 bs 13, pollPeriod := u16 bs 14, downLimit := u8 bs 16 }

/-- A timing record with each value brought into its range (R137). -/
def clampTiming (t : Timing) : Timing :=
  { tCall := clampHalf 50 5000 t.tCall, tBody := clampHalf 100 20000 t.tBody, tShort := clampHalf 50 5000 t.tShort,
    tRead := clampHalf 100 20000 t.tRead, tTurn := clampHalf 0 2000 t.tTurn, tGap := clampHalf 10 1000 t.tGap,
    nCall := clampByte 1 8 t.nCall, nBody := clampByte 1 4 t.nBody, pollPeriod := clampHalf 5 1000 t.pollPeriod,
    downLimit := clampByte 2 32 t.downLimit }

/-- A LOAD of kind LINE_TIMING (R137). -/
def loadTimings (s : State) (first count : Nat) (records : List (List Byte)) : Served :=
  let raws := records.map rawTiming
  let ts := raws.map clampTiming
  ⟨{ s with lines := mapTable (fun i e => if first ≤ i then { e with timing := ts.getD (i - first) e.timing } else e) s.lines },
    clampStatus (decide (ts ≠ raws)), le16 (halfOf count)⟩

/-! ### EPOCH -/

/-- The timebase with a mode, period and window as loaded, clamped (R151). -/
def Epoch.loaded (e : Epoch) (m : EpochMode) (period window : Word) : Epoch :=
  let p := clampWord 10000 1000000 period
  { e with mode := m, period := p, window := clampWord 0 (p.toNat / 8) window, lock := .none }

/-- A LOAD of kind EPOCH (R151). -/
def loadEpochRecord (s : State) (count : Nat) (bs : List Byte) : Served :=
  match epochMode? (u8 bs 0) with
  | none => Served.error s .kind
  | some m =>
    let e := s.epoch.loaded m (u32 bs 1) (u32 bs 5)
    ⟨{ s with epoch := e }, clampStatus (decide (e.period ≠ u32 bs 1) || decide (e.window ≠ u32 bs 5)),
      le16 (halfOf count) ++ epochBytes e⟩

/-! ### The checks of a LOAD (R165) -/

/-- A LOAD that has passed R165, handed to its table's owner (R166). -/
def loadTable (s : State) (table : Byte) (first count : Nat) (records : List (List Byte)) : Served :=
  match table.toNat with
  | 1 => loadRobots s first count records
  | 2 => loadCurves s first count records
  | 3 => loadProfiles s first count records
  | 4 => loadZones s first count records
  | 5 => loadTimings s first count records
  | _ => loadEpochRecord s count (records.headD [])

/-- A LOAD that has passed R161: the checks of R165 in their order. -/
def serveLoad (s : State) (table : Byte) (first count : Half) (records : List Byte) : Served :=
  match loadShape table with
  | none => Served.error s .kind
  | some (size, width) =>
    if count.toNat = 0 ∨ size < first.toNat + count.toNat then Served.error s .index
    else if records.length ≠ count.toNat * width then Served.error s .length
    else loadTable s table first.toNat count.toNat (recordsOf records width count.toNat)

/-- A READ that has passed R161: the checks of R167 in their order. -/
def serveRead (s : State) (table : Byte) (first count : Half) : Served :=
  match readShape table with
  | none => Served.error s .kind
  | some (size, width) =>
    if count.toNat = 0 ∨ size < first.toNat + count.toNat then Served.error s .index
    else if Config.payloadMax < readLead table + count.toNat * width then Served.error s .length
    else ⟨s, .ok, readPayload s table first.toNat count.toNat⟩

end Sys2Proof.Machine
end

