-- ==== Sys2Proof/Machine/Requests.lean ====
section
/-!
DEFINITION. The owners' rules of the trunk requests (8.3): each answers with the state it leaves, a status and a payload.
-/

namespace Sys2Proof.Machine

/-! ### Move requests (2.3) -/

/-- Robot `r` holds a move record, in the open wave or the deferred list, that a new request replaces (R30). -/
def State.holdsMove (s : State) (r : RobotNo) : Bool := s.inOpen r || s.inDeferred r

/-- The tests that MOVE, RETRACE and HOME share, in their order: profile number, present, ENABLE (R25, R31, R32). -/
def withMover (s : State) (r : RobotNo) (profile : Byte) (f : Robot → ProfileNo → Served) : Served :=
  match index? 16 profile.toNat with
  | none => Served.error s .index
  | some p =>
    if (s.robot r).slot = .absent then Served.refused s .absent 0
    else if (s.robot r).static.enable = false then Served.refused s .disabled 0
    else f (s.robot r) p

/-- MOVE (R25 to R30). -/
def moveRequest (s : State) (r : RobotNo) (hub elbow : Word) (profile : Byte) : Served :=
  withMover s r profile fun b p =>
    match calibrate s b.static hub elbow with
    | .error why => Served.refused s why 0
    | .ok g =>
      { state := s.placeRecord ⟨r, .goto g, p⟩
        status := clampStatus (g.hubClamped || g.elbowClamped)
        payload := pairBytes g.angles ++ pairBytes g.steps ++ [replyFlags g.hubClamped g.elbowClamped (s.holdsMove r)] }

/-- RETRACE (R31). -/
def retraceRequest (s : State) (r : RobotNo) (profile : Byte) : Served :=
  withMover s r profile fun b p =>
    if b.stack = [] then Served.refused s .empty 0
    else
      { state := s.placeRecord ⟨r, .retrace, p⟩
        status := .ok
        payload := [replyFlags false false (s.holdsMove r), byteOf b.stack.length] }

/-- HOME (R32). -/
def homeRequest (s : State) (r : RobotNo) (profile : Byte) : Served :=
  withMover s r profile fun _ p =>
    { state := s.placeRecord ⟨r, .home, p⟩, status := .ok, payload := [replyFlags false false (s.holdsMove r)] }

/-! ### CANCEL, HALT, REFRESH, REPORT -/

/-- CANCEL (R64): the list the record is taken from, its kind, and the deferral count of a deferred entry. -/
def cancelRequest (s : State) (r : RobotNo) : Served :=
  match s.openWave.find? fun m => m.robot = r with
  | some m => ⟨s.withdraw r, .ok, [1, m.what.kind.code, 0]⟩
  | none =>
    match s.deferred.find? fun d => d.record.robot = r with
    | some d => ⟨s.withdraw r, .ok, [2, d.record.what.kind.code, byteOf d.count]⟩
    | none => Served.refused s .notFound 0

/-- The tests that HALT and REFRESH share: present, line not DOWN (R109, R111). -/
def withReachable (s : State) (r : RobotNo) (s' : State) : Served :=
  if (s.robot r).slot = .absent then Served.refused s .absent 0
  else if (s.line (s.lineOf r)).state = .down then Served.refused s .lineDown 0
  else ⟨s', .queued, []⟩

/-- A HALT request stops robot `r`'s member (R109): the robot is ARMED or MOVING with an undecided member. -/
def State.haltStops (s : State) (r : RobotNo) : Bool :=
  (decide ((s.robot r).slot = .armed) || decide ((s.robot r).slot = .moving)) && (s.member? r).isSome

/-- HALT (R109): a HALT single is listed; a stopped member begins its read-back with it as the first round. -/
def haltRequest (s : State) (r : RobotNo) : Served :=
  withReachable s r (if s.haltStops r then (s.stopMember r (.halt 1)).offerHalt r else s.offerHalt r)

/-- REFRESH (R111). -/
def refreshRequest (s : State) (r : RobotNo) : Served := withReachable s r (s.offerRead r true false)

/-- REPORT (R17). -/
def reportRequest (s : State) (r : RobotNo) : Served := ⟨s, .ok, reportBytes s r⟩

/-! ### FLAGS (R11) -/

/-- Operation of a FLAGS request. -/
inductive FlagsOp where
  | set | clear | toggle
  deriving DecidableEq, Repr

/-- The operation of a code, if it is defined (10.6). -/
def flagsOp? (op : Byte) : Option FlagsOp :=
  match op.toNat with
  | 1 => some .set
  | 2 => some .clear
  | 3 => some .toggle
  | _ => none

/-- One flag under an operation, if it is selected. -/
def FlagsOp.apply (op : FlagsOp) (selected flag : Bool) : Bool :=
  if selected then
    match op with
    | .set => true
    | .clear => false
    | .toggle => !flag
  else flag

/-- The ENABLE and PRIORITY flags of a present record under an operation; an ABSENT record is skipped. -/
def Robot.flagged (b : Robot) (op : FlagsOp) (mask : Byte) : Robot :=
  if b.static.present = false then b
  else
    { b with static := { b.static with enable := op.apply (flagBit mask 0) b.static.enable
                                       priority := op.apply (flagBit mask 1) b.static.priority } }

/-- At least one flag of a record changes value. -/
def Robot.flagsChange (b : Robot) (op : FlagsOp) (mask : Byte) : Bool :=
  decide ((b.flagged op mask).static.enable ≠ b.static.enable) ||
    decide ((b.flagged op mask).static.priority ≠ b.static.priority)

/-- A robot number lies in a range, both ends included. -/
def inRange (first last : Half) (i : Nat) : Bool := decide (first.toNat ≤ i) && decide (i ≤ last.toNat)

/-- FLAGS (R11). DEDUCED (log entry 37): the range is tested before the operation code, as R11 names them. -/
def flagsRequest (s : State) (first last : Half) (op mask : Byte) : Served :=
  if 479 < first.toNat ∨ 479 < last.toNat ∨ last.toNat < first.toNat then Served.error s .index
  else
    match flagsOp? op with
    | none => Served.error s .kind
    | some op =>
      { state := { s with robots := mapTable (fun i b => if inRange first last i then b.flagged op mask else b) s.robots }
        status := .ok
        payload := le16 (halfOf
          (indicesFrom (fun i b => inRange first last i && b.flagsChange op mask) 0 s.robots.toList).length) }

/-! ### COMMIT, ABORT -/

/-- The wave record is absent or DONE (R68, R87). -/
def State.waveIdle (s : State) : Bool :=
  match s.wave with
  | none => true
  | some w => decide (w.state = .done)

/-- The reply payload of a COMMIT (R73): the four counts, then the wave number and start mark, both 0 when no wave was
created. -/
def commitBytes (out : State × CommitRun) : List Byte :=
  le16 (halfOf out.2.counts.admitted) ++ le16 (halfOf out.2.counts.deferred) ++ le16 (halfOf out.2.counts.dropped) ++
    le16 (halfOf out.2.counts.null) ++
    if out.2.members = [] then List.replicate 6 0
    else
      match out.1.wave with
      | none => List.replicate 6 0
      | some w => le16 w.number ++ le32 w.startMark

/-- COMMIT (R68 to R73). -/
def commitRequest (s : State) (lead chainCount chainLead : Byte) : Served :=
  if lead = 0 ∨ 7 < chainCount.toNat ∨ chainLead = 0 then Served.error s .index
  else if s.waveIdle = false then Served.refused s .active 0
  else if s.openWave = [] ∧ s.deferred = [] then Served.refused s .empty 0
  else
    let out := commitRequested s lead chainCount chainLead
    ⟨out.1, .ok, commitBytes out⟩

/-- ABORT (R87, R88). -/
def abortRequest (s : State) : Served :=
  match s.wave with
  | none => Served.refused s .noWave 0
  | some w =>
    match w.state with
    | .done => Served.refused s .noWave 0
    | .aborting => ⟨s, .ok, le16 w.number ++ le16 0 ++ le16 0⟩
    | .arming => aborted w
    | .armed => aborted w
    | .running => aborted w
where
  /-- The abort of an ARMING, ARMED or RUNNING wave, with its completion test. -/
  aborted (w : Wave) : Served :=
    let out := abortWave s
    ⟨doneTest out.1, .ok, le16 w.number ++ le16 (halfOf out.2.1) ++ le16 (halfOf out.2.2)⟩

/-! ### TAKE, MASK, STATUS -/

/-- TAKE (R179): the class that is the attention value is returned and emptied. -/
def takeRequest (s : State) : Served :=
  match s.events.attention? with
  | none => ⟨s, .ok, List.replicate 6 0⟩
  | some c =>
    let x := s.events.get c
    ⟨{ s with events := s.events.put c EventRec.empty }, .ok, [c.code, x.count] ++ le16 x.first ++ le16 x.last⟩

/-- MASK (R177): all four masks are written as one change. -/
def maskRequest (s : State) (fault timing flow link : Byte) : Served :=
  let m : Masks := ⟨readBool fault, readBool timing, readBool flow, readBool link⟩
  ⟨{ s with events := { s.events with masks := m } }, .ok,
    [boolByte m.fault, boolByte m.timing, boolByte m.flow, boolByte m.link]⟩

/-- STATUS (R169). -/
def statusRequest (s : State) : Served := ⟨s, .ok, statusBytes s⟩

/-! ### LINE_RESET, RESET -/

/-- One line of a LINE_RESET: the state, and the number of entries failed, 0 for a line not named (R135). -/
def resetNamed (s : State) (mask : Byte) (l : LineNo) : State × Nat :=
  if flagBit mask l.val then (resetLine s l, resetCount s l) else (s, 0)

/-- LINE_RESET (R135): the lines A to D in turn (log entry 18). -/
def lineResetRequest (s : State) (mask : Byte) : Served :=
  let a := resetNamed s mask 0
  let b := resetNamed a.1 mask 1
  let c := resetNamed b.1 mask 2
  let d := resetNamed c.1 mask 3
  ⟨d.1, .ok, le16 (halfOf a.2) ++ le16 (halfOf b.2) ++ le16 (halfOf c.2) ++ le16 (halfOf d.2)⟩

/-- RESET when it is taken (R170): it changes no state; the controller reset follows its reply. -/
def resetRequest (s : State) : Served := ⟨s, .ok, []⟩

/-! ### The owner of a request -/

/-- Hand a request that has passed R161 to its owner (8.3). -/
def perform (s : State) : Request → Served
  | .move r hub elbow profile => moveRequest s r hub elbow profile
  | .retrace r profile => retraceRequest s r profile
  | .home r profile => homeRequest s r profile
  | .cancel r => cancelRequest s r
  | .halt r => haltRequest s r
  | .refresh r => refreshRequest s r
  | .report r => reportRequest s r
  | .load table first count records => serveLoad s table first count records
  | .read table first count => serveRead s table first count
  | .flags first last op mask => flagsRequest s first last op mask
  | .commit lead chainCount chainLead => commitRequest s lead chainCount chainLead
  | .abort => abortRequest s
  | .take => takeRequest s
  | .mask fault timing flow link => maskRequest s fault timing flow link
  | .status => statusRequest s
  | .lineReset lines => lineResetRequest s lines
  | .reset => resetRequest s

end Sys2Proof.Machine
end

