-- ==== Sys2Proof/Machine/Port.lean ====
section
/-!
DEFINITION. The Trunk Port: the receiving half (R154 to R158), the dispatching half (R159 to R162), controller reset
(R170) and power-on reset (R172).
-/

namespace Sys2Proof.Machine

/-! ### Dispatch -/

/-- Carry out one request frame whole: the checks of R161, then its owner. -/
def serve (s : State) (f : Frame) : Served :=
  match parseRequest f with
  | .error why => Served.error s why
  | .ok q => perform s q

/-- The reply to a frame: it echoes destination and kind, and carries the attention value after the request's own
effects (R160, R162). -/
def replyTo (f : Frame) (v : Served) : Reply :=
  { dest := f.dest, kind := f.kind, status := v.status, attention := v.state.events.attention, payload := v.payload }

/-- Take a request frame: it is carried out, its reply formed, and the dispatching half begins to send it (R159). -/
def take (s : State) (f : Frame) : State :=
  let v := serve s f
  { v.state with trunk := { v.state.trunk with disp := .replying (replyTo f v) } }

/-- In WAITING with the queue not empty, the frame at the head is taken (R159). -/
def dispatchNext (s : State) : State :=
  match s.trunk.disp, s.trunk.queue with
  | .waiting, f :: rest => take { s with trunk := { s.trunk with queue := rest } } f
  | .waiting, [] => s
  | .replying _, _ => s

/-! ### The receiving half -/

/-- Write the state of the receiving half. -/
def State.setRx (s : State) (x : RxState) : State := { s with trunk := { s.trunk with rx := x } }

/-- Count a frame discarded for its CRC or length field, and raise TRUNK_ERROR (R154, R155, R158). -/
def badCheck (s : State) : State :=
  State.raise { s with trunk := { s.trunk with badCheck := countUp s.trunk.badCheck } } .trunkError badCheckDetail

/-- Offer a good frame to the inbound queue (R157). -/
def offerFrame (s : State) (f : Frame) : State :=
  if s.trunk.queue.length < Config.queueDepth then { s with trunk := { s.trunk with queue := s.trunk.queue ++ [f] } }
  else State.raise { s with trunk := { s.trunk with overrun := countUp s.trunk.overrun } } .trunkError overrunDetail

/-- A good frame is complete (R155): it is offered to the queue, the receiver returns to HUNT, and the dispatching half
takes the head when it is WAITING. -/
def acceptFrame (s : State) (f : Frame) : State := dispatchNext (offerFrame (s.setRx .hunt) f)

/-- A frame with a length field above 512 is discarded and the receiver moves to SKIP (R154). -/
def skipFrame (s : State) : State := (badCheck s).setRx .skip

/-- A frame is complete in FRAME: judged by its length field and its CRC (R154, R155). -/
def frameComplete (s : State) (f : Frame) (check : Half) : State :=
  match s.trunk.rx with
  | .hunt => s
  | .skip => s
  | .frame =>
    if Config.payloadMax < f.payload.length then skipFrame s
    else if check = crc f.checked then acceptFrame s f
    else (badCheck s).setRx .hunt

/-- The second length character shows a length above 512 (R154). -/
def lengthOversize (s : State) (length : Half) : State :=
  match s.trunk.rx with
  | .hunt => s
  | .skip => s
  | .frame => if Config.payloadMax < length.toNat then skipFrame s else s

/-- A gap inside a frame abandons it (R156). -/
def gapAbandon (s : State) : State :=
  match s.trunk.rx with
  | .hunt => s
  | .skip => s
  | .frame => { s with trunk := { s.trunk with rx := .hunt, gapAbandoned := countUp s.trunk.gapAbandoned } }

/-- A quiet time in SKIP returns the receiver to HUNT (R154). -/
def skipQuiet (s : State) : State :=
  match s.trunk.rx with
  | .hunt => s
  | .frame => s
  | .skip => s.setRx .hunt

/-- An A5h character begins a frame in HUNT (R154). -/
def frameBegins (s : State) : State :=
  match s.trunk.rx with
  | .hunt => s.setRx .frame
  | .frame => s
  | .skip => s

/-- A request command: its frame arrives, whole and with a good CRC, from its start character to its end (log entry 2).
In SKIP its characters are discarded, and a payload above 512 bytes is the oversize length of R154. -/
def submit (s : State) (f : Frame) : State :=
  match s.trunk.rx with
  | .skip => s
  | .hunt => if Config.payloadMax < f.payload.length then skipFrame s else acceptFrame s f
  | .frame => if Config.payloadMax < f.payload.length then skipFrame s else acceptFrame s f

/-! ### Resets -/

/-- A robot record as controller reset leaves it (R19). -/
def Robot.afterControllerReset (b : Robot) : Robot :=
  if b.slot = .absent then b
  else
    { b with slot := .uncertain, believed := Position.zero, rest := .uncertain, lastOutcome := .reset,
             lastReason := .none }

/-- Controller reset (R170): the queue, the robots, the waves and the lines; then every zone is settled; then the Event
Unit is cleared. -/
def controllerReset (s : State) : State :=
  let s1 := { s with
    trunk := { s.trunk with queue := [] }
    robots := mapTable (fun _ (b : Robot) => b.afterControllerReset) s.robots
    openWave := [], deferred := [], wave := none }
  let s2 := (s1.modLines Line.afterControllerReset).settle fun _ _ => true
  { s2 with events := Events.reset }

/-- The kind code of RESET (10.6). -/
def resetKind : Byte := 25

/-- A reply answers a RESET that was carried out (R170). -/
def Reply.isReset (r : Reply) : Bool := decide (r.kind = resetKind) && decide (r.status = .ok)

/-- The last character of a reply has gone out (R159): the controller reset is applied if the request was RESET, the
dispatching half returns to WAITING and takes the next frame. -/
def replyEnds (s : State) : State :=
  match s.trunk.disp with
  | .waiting => s
  | .replying r =>
    let s1 := if r.isReset then controllerReset s else s
    dispatchNext { s1 with trunk := { s1.trunk with disp := .waiting } }

/-- RESET_N falls (R172): the frame being received, the reply being sent and the queue are lost without a count. -/
def holdReset (s : State) : State :=
  { s with resetLow := true, trunk := { s.trunk with rx := .hunt, queue := [], disp := .waiting } }

/-- Power-up, or the rise of RESET_N: every block takes its power-on values together (R172). The commands waiting are
kept: they are the environment's. -/
def powerOn (s : State) : State := { State.reset with pending := s.pending }

end Sys2Proof.Machine
end

