-- ==== Sys2Proof/Machine/TrunkEvents.lean ====
section
/-!
DEFINITION. The events of the trunk's receiving and dispatching halves (8.1, 8.2) and the two ends of power-on reset (R172).
-/

namespace Sys2Proof.Machine

/-- TRUNK_FRAME_COMPLETE (R155). -/
def execTrunkFrameComplete (dest : Half) (kind : Byte) (payload : List Byte) (crc : Half) (s : State) :
    Host.Outcome State Fault Refusal :=
  running s fun s => frameComplete s ⟨dest, kind, payload⟩ crc

/-- TRUNK_LENGTH_OVERSIZE (R154). -/
def execTrunkLengthOversize (length : Half) (s : State) : Host.Outcome State Fault Refusal :=
  running s fun s => lengthOversize s length

/-- TRUNK_GAP_ABANDON (R156). -/
def execTrunkGapAbandon (s : State) : Host.Outcome State Fault Refusal := running s gapAbandon

/-- TRUNK_SKIP_QUIET (R154). -/
def execTrunkSkipQuiet (s : State) : Host.Outcome State Fault Refusal := running s skipQuiet

/-- REPLY_SENT (R159, R170). -/
def execReplySent (s : State) : Host.Outcome State Fault Refusal := running s replyEnds

/-- RESET_N_ASSERT (R172). -/
def execResetNAssert (s : State) : Host.Outcome State Fault Refusal := running s holdReset

/-- POWER_ON_RESET (R172): taken while RESET_N is low, at its rise, and at power-up. -/
def execPowerOnReset (s : State) : Host.Outcome State Fault Refusal := .next (powerOn s)

/-- START_CHARACTER (R154). -/
def execStartCharacter (s : State) : Host.Outcome State Fault Refusal := running s frameBegins

end Sys2Proof.Machine
end

