-- ==== Sys2Proof/Machine/TrunkRequests.lean ====
section
/-!
DEFINITION. The requests of the trunk other than LOAD, READ and FLAGS (8.3). A request command stands for its good frame
arriving (log entry 2): `submit` queues it and the dispatching half takes it when it is WAITING.
-/

namespace Sys2Proof.Machine

/-- MOVE (R25): its frame arrives; taken by `moveRequest`. -/
def execMove (dest : Half) (hub elbow : Word) (profile : Byte) (s : State) : Host.Outcome State Fault Refusal :=
  running s fun s => submit s (moveFrame dest hub elbow profile)

/-- RETRACE (R31): its frame arrives; taken by `retraceRequest`. -/
def execRetrace (dest : Half) (profile : Byte) (s : State) : Host.Outcome State Fault Refusal :=
  running s fun s => submit s (retraceFrame dest profile)

/-- HOME (R32): its frame arrives; taken by `homeRequest`. -/
def execHome (dest : Half) (profile : Byte) (s : State) : Host.Outcome State Fault Refusal :=
  running s fun s => submit s (homeFrame dest profile)

/-- CANCEL (R64): its frame arrives; taken by `cancelRequest`. -/
def execCancel (dest : Half) (s : State) : Host.Outcome State Fault Refusal :=
  running s fun s => submit s (bareFrame dest 4)

/-- HALT (R109): its frame arrives; taken by `haltRequest`. -/
def execHalt (dest : Half) (s : State) : Host.Outcome State Fault Refusal :=
  running s fun s => submit s (bareFrame dest 5)

/-- REFRESH (R111): its frame arrives; taken by `refreshRequest`. -/
def execRefresh (dest : Half) (s : State) : Host.Outcome State Fault Refusal :=
  running s fun s => submit s (bareFrame dest 6)

/-- REPORT (R17): its frame arrives; taken by `reportRequest`. -/
def execReport (dest : Half) (s : State) : Host.Outcome State Fault Refusal :=
  running s fun s => submit s (bareFrame dest 7)

/-- COMMIT (R68): its frame arrives; taken by `commitRequest`. -/
def execCommit (dest : Half) (lead chainCount chainLead : Byte) (s : State) : Host.Outcome State Fault Refusal :=
  running s fun s => submit s (commitFrame dest lead chainCount chainLead)

/-- ABORT (R87): its frame arrives; taken by `abortRequest`. -/
def execAbort (dest : Half) (s : State) : Host.Outcome State Fault Refusal :=
  running s fun s => submit s (bareFrame dest 20)

/-- TAKE (R179): its frame arrives; taken by `takeRequest`. -/
def execTake (dest : Half) (s : State) : Host.Outcome State Fault Refusal :=
  running s fun s => submit s (bareFrame dest 21)

/-- MASK (R177): its frame arrives; taken by `maskRequest`. -/
def execMask (dest : Half) (fault timing flow link : Byte) (s : State) : Host.Outcome State Fault Refusal :=
  running s fun s => submit s (maskFrame dest fault timing flow link)

/-- STATUS (R169): its frame arrives; taken by `statusRequest`. -/
def execStatus (dest : Half) (s : State) : Host.Outcome State Fault Refusal :=
  running s fun s => submit s (bareFrame dest 23)

/-- LINE_RESET (R135): its frame arrives; taken by `lineResetRequest`. -/
def execLineReset (dest : Half) (lines : Byte) (s : State) : Host.Outcome State Fault Refusal :=
  running s fun s => submit s (lineResetFrame dest lines)

/-- RESET (R170): its frame arrives; taken by `resetRequest`, the controller reset follows its reply. -/
def execReset (dest : Half) (s : State) : Host.Outcome State Fault Refusal :=
  running s fun s => submit s (bareFrame dest 25)

end Sys2Proof.Machine
end

