-- ==== Sys2Proof/Machine/TrunkTables.lean ====
section
/-!
DEFINITION. The LOAD, READ and FLAGS requests (8.4, R11).
-/

namespace Sys2Proof.Machine

/-- LOAD of kind ROBOT (R6): its frame arrives; taken by `serveLoad` and `loadRobots`. -/
def execLoadRobot (dest first count : Half) (records : List Byte) (s : State) : Host.Outcome State Fault Refusal :=
  running s fun s => submit s (loadFrame dest 1 first count records)

/-- LOAD of kind CURVE (R22): its frame arrives; taken by `serveLoad` and `loadCurves`. -/
def execLoadCurve (dest first count : Half) (records : List Byte) (s : State) : Host.Outcome State Fault Refusal :=
  running s fun s => submit s (loadFrame dest 2 first count records)

/-- LOAD of kind PROFILE (R24): its frame arrives; taken by `serveLoad` and `loadProfiles`. -/
def execLoadProfile (dest first count : Half) (records : List Byte) (s : State) : Host.Outcome State Fault Refusal :=
  running s fun s => submit s (loadFrame dest 3 first count records)

/-- LOAD of kind ZONE (R59): its frame arrives; taken by `serveLoad` and `loadZones`. -/
def execLoadZone (dest first count : Half) (records : List Byte) (s : State) : Host.Outcome State Fault Refusal :=
  running s fun s => submit s (loadFrame dest 4 first count records)

/-- LOAD of kind LINE_TIMING (R137): its frame arrives; taken by `serveLoad` and `loadTimings`. -/
def execLoadLineTiming (dest first count : Half) (records : List Byte) (s : State) :
    Host.Outcome State Fault Refusal :=
  running s fun s => submit s (loadFrame dest 5 first count records)

/-- LOAD of kind EPOCH (R151): its frame arrives; taken by `serveLoad` and `loadEpochRecord`. -/
def execLoadEpoch (dest first count : Half) (records : List Byte) (s : State) : Host.Outcome State Fault Refusal :=
  running s fun s => submit s (loadFrame dest 6 first count records)

/-- READ of kind ROBOT (R20): its frame arrives; taken by `serveRead`. -/
def execReadRobot (dest first count : Half) (s : State) : Host.Outcome State Fault Refusal :=
  running s fun s => submit s (readFrame dest 1 first count)

/-- READ of kind CURVE (R22): its frame arrives; taken by `serveRead`. -/
def execReadCurve (dest first count : Half) (s : State) : Host.Outcome State Fault Refusal :=
  running s fun s => submit s (readFrame dest 2 first count)

/-- READ of kind PROFILE (R24): its frame arrives; taken by `serveRead`. -/
def execReadProfile (dest first count : Half) (s : State) : Host.Outcome State Fault Refusal :=
  running s fun s => submit s (readFrame dest 3 first count)

/-- READ of kind ZONE (R60): its frame arrives; taken by `serveRead`. -/
def execReadZone (dest first count : Half) (s : State) : Host.Outcome State Fault Refusal :=
  running s fun s => submit s (readFrame dest 4 first count)

/-- READ of kind LINE_TIMING (R137): its frame arrives; taken by `serveRead`. -/
def execReadLineTiming (dest first count : Half) (s : State) : Host.Outcome State Fault Refusal :=
  running s fun s => submit s (readFrame dest 5 first count)

/-- READ of kind EPOCH (R152): its frame arrives; taken by `serveRead`. -/
def execReadEpoch (dest first count : Half) (s : State) : Host.Outcome State Fault Refusal :=
  running s fun s => submit s (readFrame dest 6 first count)

/-- READ of kind ROBOT_STATE (R17): its frame arrives; taken by `serveRead`. -/
def execReadRobotState (dest first count : Half) (s : State) : Host.Outcome State Fault Refusal :=
  running s fun s => submit s (readFrame dest 7 first count)

/-- READ of kind ZONE_STATE (R60): its frame arrives; taken by `serveRead`. -/
def execReadZoneState (dest first count : Half) (s : State) : Host.Outcome State Fault Refusal :=
  running s fun s => submit s (readFrame dest 8 first count)

/-- READ of kind DEFERRED (R67): its frame arrives; taken by `serveRead`. -/
def execReadDeferred (dest first count : Half) (s : State) : Host.Outcome State Fault Refusal :=
  running s fun s => submit s (readFrame dest 9 first count)

/-- READ of kind WAVE (R89): its frame arrives; taken by `serveRead`. -/
def execReadWave (dest first count : Half) (s : State) : Host.Outcome State Fault Refusal :=
  running s fun s => submit s (readFrame dest 10 first count)

/-- FLAGS with operation SET (R11): its frame arrives; taken by `flagsRequest`. -/
def execFlagsSet (dest first last : Half) (mask : Byte) (s : State) : Host.Outcome State Fault Refusal :=
  running s fun s => submit s (flagsFrame dest first last 1 mask)

/-- FLAGS with operation CLEAR (R11): its frame arrives; taken by `flagsRequest`. -/
def execFlagsClear (dest first last : Half) (mask : Byte) (s : State) : Host.Outcome State Fault Refusal :=
  running s fun s => submit s (flagsFrame dest first last 2 mask)

/-- FLAGS with operation TOGGLE (R11): its frame arrives; taken by `flagsRequest`. -/
def execFlagsToggle (dest first last : Half) (mask : Byte) (s : State) : Host.Outcome State Fault Refusal :=
  running s fun s => submit s (flagsFrame dest first last 3 mask)

end Sys2Proof.Machine
end

