-- ==== Sys2Proof/Machine/Dispatch.lean ====
section
/-! DEFINITION. One arm for each command: a direct call of its meaning. -/

namespace Sys2Proof.Machine

/-- What a command does to everything but the queue of waiting commands. -/
def exec (i : Instr) (s : State) : Host.Outcome State Fault Refusal :=
  match i with
  | .move dest hub elbow profile => Sys2Proof.Machine.execMove dest hub elbow profile s
  | .retrace dest profile => Sys2Proof.Machine.execRetrace dest profile s
  | .home dest profile => Sys2Proof.Machine.execHome dest profile s
  | .cancel dest => Sys2Proof.Machine.execCancel dest s
  | .halt dest => Sys2Proof.Machine.execHalt dest s
  | .refresh dest => Sys2Proof.Machine.execRefresh dest s
  | .report dest => Sys2Proof.Machine.execReport dest s
  | .loadRobot dest first count records => Sys2Proof.Machine.execLoadRobot dest first count records s
  | .loadCurve dest first count records => Sys2Proof.Machine.execLoadCurve dest first count records s
  | .loadProfile dest first count records => Sys2Proof.Machine.execLoadProfile dest first count records s
  | .loadZone dest first count records => Sys2Proof.Machine.execLoadZone dest first count records s
  | .loadLineTiming dest first count records => Sys2Proof.Machine.execLoadLineTiming dest first count records s
  | .loadEpoch dest first count records => Sys2Proof.Machine.execLoadEpoch dest first count records s
  | .readRobot dest first count => Sys2Proof.Machine.execReadRobot dest first count s
  | .readCurve dest first count => Sys2Proof.Machine.execReadCurve dest first count s
  | .readProfile dest first count => Sys2Proof.Machine.execReadProfile dest first count s
  | .readZone dest first count => Sys2Proof.Machine.execReadZone dest first count s
  | .readLineTiming dest first count => Sys2Proof.Machine.execReadLineTiming dest first count s
  | .readEpoch dest first count => Sys2Proof.Machine.execReadEpoch dest first count s
  | .readRobotState dest first count => Sys2Proof.Machine.execReadRobotState dest first count s
  | .readZoneState dest first count => Sys2Proof.Machine.execReadZoneState dest first count s
  | .readDeferred dest first count => Sys2Proof.Machine.execReadDeferred dest first count s
  | .readWave dest first count => Sys2Proof.Machine.execReadWave dest first count s
  | .flagsSet dest first last mask => Sys2Proof.Machine.execFlagsSet dest first last mask s
  | .flagsClear dest first last mask => Sys2Proof.Machine.execFlagsClear dest first last mask s
  | .flagsToggle dest first last mask => Sys2Proof.Machine.execFlagsToggle dest first last mask s
  | .commit dest lead chainCount chainLead => Sys2Proof.Machine.execCommit dest lead chainCount chainLead s
  | .abort dest => Sys2Proof.Machine.execAbort dest s
  | .take dest => Sys2Proof.Machine.execTake dest s
  | .mask dest fault timing flow link => Sys2Proof.Machine.execMask dest fault timing flow link s
  | .status dest => Sys2Proof.Machine.execStatus dest s
  | .lineReset dest lines => Sys2Proof.Machine.execLineReset dest lines s
  | .reset dest => Sys2Proof.Machine.execReset dest s
  | .trunkFrameComplete dest kind payload crc => Sys2Proof.Machine.execTrunkFrameComplete dest kind payload crc s
  | .trunkLengthOversize length => Sys2Proof.Machine.execTrunkLengthOversize length s
  | .trunkGapAbandon => Sys2Proof.Machine.execTrunkGapAbandon s
  | .trunkSkipQuiet => Sys2Proof.Machine.execTrunkSkipQuiet s
  | .replySent => Sys2Proof.Machine.execReplySent s
  | .resetNAssert => Sys2Proof.Machine.execResetNAssert s
  | .powerOnReset => Sys2Proof.Machine.execPowerOnReset s
  | .epochMark => Sys2Proof.Machine.execEpochMark s
  | .epochPulse t => Sys2Proof.Machine.execEpochPulse t s
  | .lineArbiterChoose line t => Sys2Proof.Machine.execLineArbiterChoose line t s
  | .lineFrameSent line t => Sys2Proof.Machine.execLineFrameSent line t s
  | .broadcastSent line t => Sys2Proof.Machine.execBroadcastSent line t s
  | .nextFrameSend line t => Sys2Proof.Machine.execNextFrameSend line t s
  | .endFrameSend line t => Sys2Proof.Machine.execEndFrameSend line t s
  | .endSent line t => Sys2Proof.Machine.execEndSent line t s
  | .answerReady line t => Sys2Proof.Machine.execAnswerReady line t s
  | .answerNotReady line t => Sys2Proof.Machine.execAnswerNotReady line t s
  | .answerAccept line t => Sys2Proof.Machine.execAnswerAccept line t s
  | .answerRetry line t => Sys2Proof.Machine.execAnswerRetry line t s
  | .answerRefuse line t fault => Sys2Proof.Machine.execAnswerRefuse line t fault s
  | .answerPoll line t code posOk fault wave remaining => Sys2Proof.Machine.execAnswerPoll line t code posOk fault wave remaining s
  | .answerStatus line t code posOk fault wave hub elbow => Sys2Proof.Machine.execAnswerStatus line t code posOk fault wave hub elbow s
  | .answerGarbled line t bytes => Sys2Proof.Machine.execAnswerGarbled line t bytes s
  | .answerWaitSilence line t => Sys2Proof.Machine.execAnswerWaitSilence line t s
  | .answerCharGap line t => Sys2Proof.Machine.execAnswerCharGap line t s
  | .readAnswerDeadline line t => Sys2Proof.Machine.execReadAnswerDeadline line t s
  | .strayCharacter line t => Sys2Proof.Machine.execStrayCharacter line t s
  | .overrunDeadline robot t => Sys2Proof.Machine.execOverrunDeadline robot t s
  | .startCharacter => Sys2Proof.Machine.execStartCharacter s
  | .answerBegun line t => Sys2Proof.Machine.execAnswerBegun line t s

end Sys2Proof.Machine
end

