-- ==== Sys2Proof/Machine/RobotSide.lean ====
section
/-!
DEFINITION. The robot's side of a line, as far as the 6120 depends on it: the step generator (R41), the frames a robot
takes (R124, R185), and what it does and answers (R78, R91, R92, R125). A robot is outside the part, so none of this is in
State (log entry 17); the part meets it only in the answers that the ANSWER commands carry.
-/

namespace Sys2Proof.Machine

/-! ### The step generator (R41) -/

/-- One axis of a step generator: its phase, its remainder, and the steps taken since GO. -/
structure Axis where
  phase : Nat
  remainder : Nat
  steps : Nat
  deriving DecidableEq, Repr

/-- An axis cleared at GO (R41). -/
def Axis.start : Axis := ⟨0, 0, 0⟩

/-- One interval of an axis with increment `x`, remainder term `a` and duration `n` (R41): the phase that is 65 536 or
more gives one step for each 65 536 in it. -/
def Axis.interval (x a n : Nat) (g : Axis) : Axis :=
  let carry := n ≤ g.remainder + a
  let phase := g.phase + x + if carry then 1 else 0
  { phase := phase % 65536, remainder := if carry then g.remainder + a - n else g.remainder + a,
    steps := g.steps + phase / 65536 }

/-- An axis after a number of intervals from GO. -/
def Axis.after (x a n : Nat) : Nat → Axis
  | 0 => Axis.start
  | k + 1 => (Axis.after x a n k).interval x a n

/-- The steps an axis takes in one interval, counted from 1 (R42). -/
def Axis.stepsIn (x a n k : Nat) : Nat := (Axis.after x a n k).steps - (Axis.after x a n (k - 1)).steps

/-! ### A robot -/

/-- A robot's state, in the order of its codes 0–6 (R91, 10.6). -/
inductive UnitState where
  | idle | armed | moving | homing | arrived | stalled | fault
  deriving DecidableEq, Repr

/-- State code (10.6). -/
def UnitState.code : UnitState → Byte
  | .idle => 0 | .armed => 1 | .moving => 2 | .homing => 3 | .arrived => 4 | .stalled => 5 | .fault => 6

/-- A robot on a line: what it reports (R91), the body it holds and whether it has started one since it last accepted one
(R78), its readiness (R125), and its running generator (R41). -/
structure RobotUnit where
  drop : Byte
  state : UnitState
  body : Option Body
  started : Bool
  ready : Bool
  posOk : Bool
  fault : Byte
  wave : Half
  /-- Motor counters, hub and elbow. -/
  counters : Int × Int
  hub : Axis
  elbow : Axis
  count : Nat
  deriving DecidableEq, Repr

/-- What a robot may choose at a frame (R125): it cannot take a body now, the body arrived intact but it cannot take it
yet, or its own fault forbids it. -/
structure RobotChoice where
  busy : Bool
  retry : Bool
  forbids : Bool
  deriving DecidableEq, Repr

/-! ### Frames taken -/

/-- Payload size of a frame code 01h–09h (10.7). -/
def frameSize (code : Byte) : Option Nat :=
  match code.toNat with
  | 1 => some 0
  | 2 => some 15
  | 3 => some 12
  | 4 => some 0
  | 5 => some 0
  | 6 => some 0
  | 7 => some 0
  | 8 => some 0
  | 9 => some 3
  | _ => none

/-- The frame a robot at `drop` takes from received bytes, if it takes one (R124, R185): start character C3h, its own
drop or 127, a code 01h–09h with its payload size, and a correct CRC. -/
def robotTakes (drop : Byte) (bs : List Byte) : Option LineFrame :=
  match bs with
  | start :: d :: code :: len :: rest =>
    if start = 0xC3 ∧ (d = drop ∨ d = Config.broadcastDrop) ∧ frameSize code = some len.toNat ∧
        rest.length = len.toNat + 2 ∧ u16 rest len.toNat = crc (d :: code :: len :: rest.take len.toNat) then
      some ⟨d, code, rest.take len.toNat⟩
    else none
  | _ => none

/-- The body a body frame carries (10.7). -/
def bodyOf (f : LineFrame) : Option Body :=
  match f.code.toNat with
  | 2 =>
    some (.segment
      { hubNegative := flagBit (u8 f.payload 0) 0, elbowNegative := flagBit (u8 f.payload 0) 1, n := u16 f.payload 1,
        xHub := u32 f.payload 3, aHub := u16 f.payload 7, xElbow := u32 f.payload 9, aElbow := u16 f.payload 13 })
  | 3 => some (.home ⟨u32 f.payload 0, u32 f.payload 4⟩ (u32 f.payload 8))
  | _ => none

/-! ### What a robot does -/

/-- The robot runs a segment or a homing, or still slows under a HALT. -/
def RobotUnit.running (u : RobotUnit) : Bool := decide (u.state = .moving) || decide (u.state = .homing)

/-- The remaining intervals: N minus the interval count for the segment the robot holds, running or stopped, or 0 otherwise
(R41, R91). -/
def RobotUnit.remaining (u : RobotUnit) : Nat :=
  match u.body with
  | some (.segment g) => g.n.toNat - u.count
  | some (.home _ _) => 0
  | none => 0

/-- A poll answer (R91). -/
def RobotUnit.pollAnswer (u : RobotUnit) : Answer :=
  .poll u.state.code (boolByte u.posOk) u.fault u.wave (halfOf u.remaining)

/-- A status answer (R91). -/
def RobotUnit.statusAnswer (u : RobotUnit) : Answer :=
  .status u.state.code (boolByte u.posOk) u.fault u.wave (BitVec.ofInt 32 u.counters.1) (BitVec.ofInt 32 u.counters.2)

/-- A HALT, single or broadcast (R92): the body held is discarded, started or not. A robot at rest with an unstarted body is
IDLE; one in motion slows, and reports MOVING or HOMING until its motion has ended (`slows`); one that is ARRIVED, STALLED or
FAULT keeps its state and counters. DESIGN CHOICE (log entry 33): such a robot keeps the segment it was stopped in too, so its
remaining intervals stay N minus the count. -/
def RobotUnit.halted (u : RobotUnit) : RobotUnit :=
  match u.state with
  | .arrived => u
  | .stalled => u
  | .fault => u
  | .idle => { u with body := none }
  | .armed => { u with state := .idle, body := none }
  | .moving => { u with body := none }
  | .homing => { u with body := none }

/-- A halted robot slows as fast as its mechanics allow (R92): its counters follow its motion, and when the motion has ended it
is IDLE with its counters wherever that is. -/
def RobotUnit.slows (u : RobotUnit) (counters : Int × Int) (ended : Bool) : RobotUnit :=
  if u.running ∧ u.body = none then { u with counters := counters, state := if ended then .idle else u.state } else u

/-- A CLEAR (R78): an unstarted body is discarded and answered ACCEPT; a robot that has started one since it last
accepted one answers REFUSE with its fault code. -/
def RobotUnit.cleared (u : RobotUnit) : RobotUnit × Answer :=
  if u.started then (u, .refuse u.fault)
  else if u.state = .armed then ({ u with state := .idle, body := none }, .accept)
  else (u, .accept)

/-- A GO broadcast (R92): a robot that holds an unstarted body and is not the excluded drop records the wave number and
starts the body. -/
def RobotUnit.go (u : RobotUnit) (wave : Half) (excluded : Byte) : RobotUnit :=
  if u.state = .armed ∧ excluded ≠ u.drop then
    match u.body with
    | some (.segment _) =>
      { u with state := .moving, started := true, wave := wave, hub := Axis.start, elbow := Axis.start, count := 0 }
    | some (.home _ _) => { u with state := .homing, started := true, wave := wave }
    | none => u
  else u

/-- A body to a ready robot (R125). After RETRY it stays ready for the body sent again, and an accepted segment has no interval
counted yet (log entry 17). DESIGN CHOICE (log entry 34): the fault code that it last had is kept, here and at a GO and an
arrival. -/
def RobotUnit.offered (u : RobotUnit) (c : RobotChoice) (b : Body) : RobotUnit × Option Answer :=
  if u.running then ({ u with ready := false }, some (.refuse 0))
  else if c.forbids then ({ u with ready := false }, some (.refuse u.fault))
  else if c.retry then (u, some .retry)
  else ({ u with ready := false, state := .armed, body := some b, started := false, count := 0 }, some .accept)

/-- What a robot does with a frame it has taken, and its answer (R78, R92, R125). A frame to drop 127 is never
answered. -/
def RobotUnit.receive (u : RobotUnit) (c : RobotChoice) (f : LineFrame) : RobotUnit × Option Answer :=
  if f.drop = Config.broadcastDrop then
    match f.code.toNat with
    | 7 => (u.halted, none)
    | 9 => (u.go (u16 f.payload 0) (u8 f.payload 2), none)
    | _ => (u, none)
  else
    match f.code.toNat with
    | 1 => if c.busy && !u.running then ({ u with ready := false }, some .notReady) else ({ u with ready := true }, some .ready)
    | 4 => if u.ready then ({ u with ready := false }, some u.statusAnswer) else (u, none)
    | 5 => ({ u with ready := false }, none)
    | 6 => let r := u.cleared; ({ r.1 with ready := false }, some r.2)
    | 7 => ({ u.halted with ready := false }, some .accept)
    | 8 => ({ u with ready := false }, some u.pollAnswer)
    | _ =>
      match bodyOf f with
      | some b => if u.ready then u.offered c b else (u, none)
      | none => (u, none)

/-- The change of a counter by steps in a direction. -/
def moved (negative : Bool) (counter : Int) (steps : Nat) : Int := if negative then counter - steps else counter + steps

/-- One 1 ms interval of a robot's clock (R41): a MOVING robot's generators advance, and after interval N it is ARRIVED,
with position-ok as its own sensing says. -/
def RobotUnit.tick (u : RobotUnit) (sensingAgrees : Bool) : RobotUnit :=
  match u.state, u.body with
  | .moving, some (.segment g) =>
    let h := u.hub.interval g.xHub.toNat g.aHub.toNat g.n.toNat
    let e := u.elbow.interval g.xElbow.toNat g.aElbow.toNat g.n.toNat
    let u' := { u with
      hub := h, elbow := e, count := u.count + 1
      counters := (moved g.hubNegative u.counters.1 (h.steps - u.hub.steps),
        moved g.elbowNegative u.counters.2 (e.steps - u.elbow.steps)) }
    if u.count + 1 = g.n.toNat then { u' with state := .arrived, posOk := sensingAgrees } else u'
  | _, _ => u

/-- A homing touches its stops (R42, R91): the home steps are loaded into the counters and the robot is ARRIVED, with
position-ok when it touched both. DESIGN CHOICE (log entry 31): a homing that did not touch both stops is ARRIVED at its home
steps too, with position-ok clear. -/
def RobotUnit.touchStops (u : RobotUnit) (bothStops : Bool) : RobotUnit :=
  match u.state, u.body with
  | .homing, some (.home p _) =>
    { u with state := .arrived, counters := (p.hub.toInt, p.elbow.toInt), posOk := bothStops }
  | _, _ => u

/-- The robot's own sensing agrees with its counters or does not (R91): a disagreement clears position-ok. -/
def RobotUnit.senses (u : RobotUnit) (agrees : Bool) : RobotUnit := if agrees then u else { u with posOk := false }

/-- A motor fails to follow its step generator or its homing, with the fault code the robot then reports (R91). -/
def RobotUnit.stalls (u : RobotUnit) (code : Byte) : RobotUnit :=
  if u.running then { u with state := .stalled, fault := code } else u

/-- A fault of the robot's own arises and stops it, with its fault code 1–255 (R91), here one more than `code`. -/
def RobotUnit.faults (u : RobotUnit) (code : Fin 255) : RobotUnit :=
  if u.running then { u with state := .fault, fault := byteOf (code.val + 1) } else u

/-- A robot's own power-up or internal reset (R91): IDLE, holding no body, and after a power-up with wave number 0. DESIGN CHOICE
(log entry 30): the wave number is 0 after an internal reset too, of which R91 says only IDLE, and after either the counters, the
fault code and the position-ok are 0, 0 and clear. -/
def RobotUnit.powerUp (drop : Byte) : RobotUnit :=
  { drop := drop, state := .idle, body := none, started := false, ready := false, posOk := false, fault := 0, wave := 0,
    counters := (0, 0), hub := Axis.start, elbow := Axis.start, count := 0 }

end Sys2Proof.Machine
end

