-- ==== Sys2Proof/Safety.lean ====
section
/-!
DEFINITION. What a good state of the part is, in the terms the statements use: the ranges, capacities and laws that the
spec gives each piece of state and that every command keeps.
-/

namespace Sys2Proof.Machine

/-! ### Event Unit -/

/-- The details of a class that is not pending read 0 (R173). -/
def EventRec.ok (x : EventRec) : Prop := x.count = 0 → x.first = 0 ∧ x.last = 0

/-- Every class record is in order (R173). -/
def EventsOk (e : Events) : Prop := ∀ c, (e.get c).ok

/-! ### Trunk Port -/

/-- The inbound queue holds at most 8 frames of at most 512 payload bytes, and nothing waits while the dispatching half is
WAITING (R154, R157, R159). -/
def TrunkOk (t : Trunk) : Prop :=
  t.queue.length ≤ Config.queueDepth ∧ (∀ f ∈ t.queue, f.payload.length ≤ Config.payloadMax) ∧
    (t.disp = .waiting → t.queue = [])

/-! ### Calibration Store, line timing, timebase -/

/-- Every knot lies in −8192 to +8191 (R21). -/
def CurveOk (k : Curve) : Prop := ∀ i : Fin 17, -8192 ≤ k[i].toInt ∧ k[i].toInt ≤ 8191

/-- Every field of a profile lies in its range (R23). -/
def ProfileOk (p : Profile) : Prop :=
  (1 ≤ p.vHub.toNat ∧ p.vHub.toNat ≤ 4095) ∧ (1 ≤ p.vElbow.toNat ∧ p.vElbow.toNat ≤ 4095) ∧
    (1 ≤ p.nMin.toNat ∧ p.nMin.toNat ≤ 1000) ∧ p.grace.toNat ≤ 10000 ∧
    (1000 ≤ p.homeLimit.toNat ∧ p.homeLimit.toNat ≤ 120000)

/-- Every parameter of a line timing record lies in its range (R137). -/
def TimingOk (t : Timing) : Prop :=
  (50 ≤ t.tCall.toNat ∧ t.tCall.toNat ≤ 5000) ∧ (100 ≤ t.tBody.toNat ∧ t.tBody.toNat ≤ 20000) ∧
    (50 ≤ t.tShort.toNat ∧ t.tShort.toNat ≤ 5000) ∧ (100 ≤ t.tRead.toNat ∧ t.tRead.toNat ≤ 20000) ∧
    t.tTurn.toNat ≤ 2000 ∧ (10 ≤ t.tGap.toNat ∧ t.tGap.toNat ≤ 1000) ∧ (1 ≤ t.nCall.toNat ∧ t.nCall.toNat ≤ 8) ∧
    (1 ≤ t.nBody.toNat ∧ t.nBody.toNat ≤ 4) ∧ (5 ≤ t.pollPeriod.toNat ∧ t.pollPeriod.toNat ≤ 1000) ∧
    (2 ≤ t.downLimit.toNat ∧ t.downLimit.toNat ≤ 32)

/-- Period, window and running period lie in their ranges (R142). -/
def EpochOk (e : Epoch) : Prop :=
  (10000 ≤ e.period.toNat ∧ e.period.toNat ≤ 1000000) ∧ e.window.toNat ≤ e.period.toNat / 8 ∧
    (10000 ≤ e.running.toNat ∧ e.running.toNat ≤ 1000000)

/-- The loaded tables lie in their ranges: curves, profiles, line timing and the timebase (R21, R23, R137, R142). -/
def TablesOk (s : State) : Prop :=
  (∀ c : Fin 256, CurveOk s.curves[c]) ∧ (∀ p : ProfileNo, ProfileOk (s.profile p)) ∧
    (∀ l : LineNo, TimingOk (s.line l).timing) ∧ EpochOk s.epoch

/-! ### Robot Table -/

/-- The static fields of a present record lie in their ranges (R5): address, gears, coupling, soft limits in order, fence
ends, at most six links with windows and thresholds on their axes, and home angles within the soft limits, outside the
forbidden set and below every link's threshold. -/
def StaticOk (b : RobotStatic) : Prop :=
  (1 ≤ b.drop.toNat ∧ b.drop.toNat ≤ 120) ∧ b.gearHub.toNat ≤ Config.gearMax ∧ b.gearElbow.toNat ≤ Config.gearMax ∧
    (-Config.couplingMax ≤ b.coupling.toInt ∧ b.coupling.toInt ≤ Config.couplingMax) ∧
    (Config.hubLow ≤ b.hubMin.toInt ∧ b.hubMin.toInt ≤ b.hubMax.toInt ∧ b.hubMax.toInt ≤ Config.hubHigh) ∧
    (Config.elbowLow ≤ b.elbowMin.toInt ∧ b.elbowMin.toInt ≤ b.elbowMax.toInt ∧ b.elbowMax.toInt ≤ Config.elbowHigh) ∧
    (inHub b.fs = true ∧ inHub b.fe = true) ∧ b.links.length ≤ Config.linksMax ∧
    (∀ k ∈ b.links, inHub k.ws = true ∧ inHub k.we = true ∧ inElbow k.thr = true ∧
      b.homeAngles.elbow.toInt < k.thr.toInt) ∧
    (b.hubMin.toInt ≤ b.homeAngles.hub.toInt ∧ b.homeAngles.hub.toInt ≤ b.hubMax.toInt) ∧
    (b.elbowMin.toInt ≤ b.homeAngles.elbow.toInt ∧ b.homeAngles.elbow.toInt ≤ b.elbowMax.toInt) ∧
    forbidden b b.homeAngles.hub.toInt = false

/-- An absent record is all zeros (R1), and a present one lies in its ranges. -/
def RobotOk (b : Robot) : Prop :=
  (b.static.present = false → b.static = RobotStatic.absent) ∧ (b.static.present = true → StaticOk b.static)

/-- Every robot record is in order. -/
def RobotsOk (s : State) : Prop := ∀ r, RobotOk (s.robot r)

/-! ### Wave Controller -/

/-- The deferred list holds at most 64 entries, each with a deferral count of 1–7 (R65). -/
def DeferredOk (d : List Deferral) : Prop := d.length ≤ Config.deferredMax ∧ ∀ x ∈ d, 1 ≤ x.count ∧ x.count ≤ 7

/-! ### Statements' vocabulary -/

/-- The part runs, takes the characters that arrive, and has no request to answer before the next one: the state in which
a request is answered at once. -/
def Ready (s : State) : Prop :=
  s.resetLow = false ∧ s.trunk.rx ≠ .skip ∧ s.trunk.disp = .waiting ∧ s.trunk.queue = []

/-- The state with the receiving half in HUNT, the queue empty and a reply being sent. -/
def State.replying (s : State) (r : Reply) : State :=
  { s with trunk := { s.trunk with rx := .hunt, queue := [], disp := .replying r } }

/-- The reply to the frame of a request, formed in a state with a status and a payload (R160, R162). -/
def replyIn (s : State) (dest : Half) (kind : Byte) (status : Status) (payload : List Byte) : Reply :=
  { dest := dest, kind := kind, status := status, attention := s.events.attention, payload := payload }

/-- The state that answers a request with a status and a payload and changes nothing else. -/
def State.answer (s : State) (dest : Half) (kind : Byte) (status : Status) (payload : List Byte) : State :=
  s.replying (replyIn s dest kind status payload)

/-- The state that answers a request ERROR with a reason (R160, R183). -/
def State.deny (s : State) (dest : Half) (kind : Byte) (why : Reason) : State :=
  s.answer dest kind .error [why.code]

/-- The state that answers a request REFUSED with a reason and a detail (R160, R183). -/
def State.refuse (s : State) (dest : Half) (kind : Byte) (why : Reason) (detail : Nat) : State :=
  s.answer dest kind .refused (why.code :: le16 (halfOf detail))

/-- The frame that a request command stands for (10.3). -/
def requestFrame : Instr → Option Frame
  | .move dest hub elbow profile => some (moveFrame dest hub elbow profile)
  | .retrace dest profile => some (retraceFrame dest profile)
  | .home dest profile => some (homeFrame dest profile)
  | .cancel dest => some (bareFrame dest 4)
  | .halt dest => some (bareFrame dest 5)
  | .refresh dest => some (bareFrame dest 6)
  | .report dest => some (bareFrame dest 7)
  | .loadRobot dest first count records => some (loadFrame dest 1 first count records)
  | .loadCurve dest first count records => some (loadFrame dest 2 first count records)
  | .loadProfile dest first count records => some (loadFrame dest 3 first count records)
  | .loadZone dest first count records => some (loadFrame dest 4 first count records)
  | .loadLineTiming dest first count records => some (loadFrame dest 5 first count records)
  | .loadEpoch dest first count records => some (loadFrame dest 6 first count records)
  | .readRobot dest first count => some (readFrame dest 1 first count)
  | .readCurve dest first count => some (readFrame dest 2 first count)
  | .readProfile dest first count => some (readFrame dest 3 first count)
  | .readZone dest first count => some (readFrame dest 4 first count)
  | .readLineTiming dest first count => some (readFrame dest 5 first count)
  | .readEpoch dest first count => some (readFrame dest 6 first count)
  | .readRobotState dest first count => some (readFrame dest 7 first count)
  | .readZoneState dest first count => some (readFrame dest 8 first count)
  | .readDeferred dest first count => some (readFrame dest 9 first count)
  | .readWave dest first count => some (readFrame dest 10 first count)
  | .flagsSet dest first last mask => some (flagsFrame dest first last 1 mask)
  | .flagsClear dest first last mask => some (flagsFrame dest first last 2 mask)
  | .flagsToggle dest first last mask => some (flagsFrame dest first last 3 mask)
  | .commit dest lead chainCount chainLead => some (commitFrame dest lead chainCount chainLead)
  | .abort dest => some (bareFrame dest 20)
  | .take dest => some (bareFrame dest 21)
  | .mask dest fault timing flow link => some (maskFrame dest fault timing flow link)
  | .status dest => some (bareFrame dest 23)
  | .lineReset dest lines => some (lineResetFrame dest lines)
  | .reset dest => some (bareFrame dest 25)
  | .trunkFrameComplete _ _ _ _ => none
  | .trunkLengthOversize _ => none
  | .trunkGapAbandon => none
  | .trunkSkipQuiet => none
  | .replySent => none
  | .resetNAssert => none
  | .powerOnReset => none
  | .epochMark => none
  | .epochPulse _ => none
  | .lineArbiterChoose _ _ => none
  | .lineFrameSent _ _ => none
  | .broadcastSent _ _ => none
  | .nextFrameSend _ _ => none
  | .endFrameSend _ _ => none
  | .endSent _ _ => none
  | .answerReady _ _ => none
  | .answerNotReady _ _ => none
  | .answerAccept _ _ => none
  | .answerRetry _ _ => none
  | .answerRefuse _ _ _ => none
  | .answerPoll _ _ _ _ _ _ _ => none
  | .answerStatus _ _ _ _ _ _ _ _ => none
  | .answerGarbled _ _ _ => none
  | .answerWaitSilence _ _ => none
  | .answerCharGap _ _ => none
  | .readAnswerDeadline _ _ => none
  | .strayCharacter _ _ => none
  | .overrunDeadline _ _ => none
  | .startCharacter => none
  | .answerBegun _ _ => none

/-- A kind code names a robot-addressed request (10.3). -/
def robotKind (kind : Byte) : Bool := 1 ≤ kind.toNat && kind.toNat ≤ 7

/-- A kind code names a controller-addressed request (10.3). -/
def controllerKind (kind : Byte) : Bool := 16 ≤ kind.toNat && kind.toNat ≤ 25

/-- A payload length suits a request kind: at least the header of 5 for LOAD, the one length of any other kind (10.3). -/
def lengthFits (kind : Byte) (n : Nat) : Bool :=
  match kind.toNat with
  | 1 => n = 9
  | 2 => n = 1
  | 3 => n = 1
  | 16 => 5 ≤ n
  | 17 => n = 5
  | 18 => n = 6
  | 19 => n = 3
  | 22 => n = 4
  | 24 => n = 1
  | _ => n = 0

/-- The first check of R161 that a frame fails, as the reason of the ERROR it is answered with. -/
def frameFault (f : Frame) : Option Reason :=
  if (robotKind f.kind || controllerKind f.kind) = false then some .kind
  else if 480 ≤ f.dest.toNat ∧ f.dest ≠ 0xFFFF then some .dest
  else if robotKind f.kind = true ∧ f.dest = 0xFFFF ∨ controllerKind f.kind = true ∧ f.dest ≠ 0xFFFF then some .dest
  else if lengthFits f.kind f.payload.length = false then some .length
  else none

/-- The line that a line event happens on (chapter 6). -/
def eventLine : Instr → Option LineNo
  | .lineArbiterChoose l _ => some l
  | .lineFrameSent l _ => some l
  | .broadcastSent l _ => some l
  | .nextFrameSend l _ => some l
  | .endFrameSend l _ => some l
  | .endSent l _ => some l
  | .answerReady l _ => some l
  | .answerNotReady l _ => some l
  | .answerAccept l _ => some l
  | .answerRetry l _ => some l
  | .answerRefuse l _ _ => some l
  | .answerPoll l _ _ _ _ _ _ => some l
  | .answerStatus l _ _ _ _ _ _ _ => some l
  | .answerGarbled l _ _ => some l
  | .answerWaitSilence l _ => some l
  | .answerCharGap l _ => some l
  | .readAnswerDeadline l _ => some l
  | .strayCharacter l _ => some l
  | .answerBegun l _ => some l
  | .move _ _ _ _ => none
  | .retrace _ _ => none
  | .home _ _ => none
  | .cancel _ => none
  | .halt _ => none
  | .refresh _ => none
  | .report _ => none
  | .loadRobot _ _ _ _ => none
  | .loadCurve _ _ _ _ => none
  | .loadProfile _ _ _ _ => none
  | .loadZone _ _ _ _ => none
  | .loadLineTiming _ _ _ _ => none
  | .loadEpoch _ _ _ _ => none
  | .readRobot _ _ _ => none
  | .readCurve _ _ _ => none
  | .readProfile _ _ _ => none
  | .readZone _ _ _ => none
  | .readLineTiming _ _ _ => none
  | .readEpoch _ _ _ => none
  | .readRobotState _ _ _ => none
  | .readZoneState _ _ _ => none
  | .readDeferred _ _ _ => none
  | .readWave _ _ _ => none
  | .flagsSet _ _ _ _ => none
  | .flagsClear _ _ _ _ => none
  | .flagsToggle _ _ _ _ => none
  | .commit _ _ _ _ => none
  | .abort _ => none
  | .take _ => none
  | .mask _ _ _ _ _ => none
  | .status _ => none
  | .lineReset _ _ => none
  | .reset _ => none
  | .trunkFrameComplete _ _ _ _ => none
  | .trunkLengthOversize _ => none
  | .trunkGapAbandon => none
  | .trunkSkipQuiet => none
  | .replySent => none
  | .resetNAssert => none
  | .powerOnReset => none
  | .epochMark => none
  | .epochPulse _ => none
  | .overrunDeadline _ _ => none
  | .startCharacter => none

/-- The state in which robot `r`'s move record is withdrawn (R30, R64). -/
def State.withdrawn (s : State) (r : RobotNo) : State :=
  { s with
    openWave := s.openWave.filter fun m => m.robot ≠ r
    deferred := s.deferred.filter fun d => d.record.robot ≠ r
    robots := s.robots.set r { s.robot r with lastOutcome := .withdrawn, lastReason := .none } }

/-- The state in which a move record is placed: what its robot held is withdrawn, and the record joins the open wave at the
tail (R30). -/
def State.placed (s : State) (m : MoveRecord) : State :=
  let s' := if s.holdsMove m.robot then s.withdrawn m.robot else s
  { s' with openWave := s'.openWave ++ [m] }

/-- Line `l` of the running part carries transaction `x`, which waits for the answer to frame `f` or receives it, and
nothing of an abandoned transaction is left on the line. -/
structure Exchanging (s : State) (l : LineNo) (x : Txn) (f : FrameKind) (since : Nat) : Prop where
  running : s.resetLow = false
  clear : (s.line l).residue = none
  txn : (s.line l).txn = some x
  phase : x.phase = .waiting f since ∨ x.phase = .receiving f since

/-- At time `t` an answer to frame `f` of transaction `x` on line `l` is received to its end: its first character has ended the
wait, or it is complete within the limit (R131, log entry 6). -/
structure Answering (s : State) (l : LineNo) (t : Time) (x : Txn) (f : FrameKind) (since : Nat) : Prop extends
    Exchanging s l x f since where
  inTime : x.phase = .waiting f since → (s.clock t).now ≤ since + answerLimit x.timing f

/-- Command `c` ends the last attempt of transaction `x` at the short frame `f` without a valid answer, and takes the line no
further: a garbled answer, one cut short by a gap, or a wait in silence below DOWN_LIMIT (R128, R131, R132). -/
structure FailsLast (s : State) (l : LineNo) (t : Time) (x : Txn) (f : FrameKind) (since : Nat) (c : Instr) : Prop extends
    Exchanging s l x f since where
  short : f = .clear ∨ f = .halt ∨ f = .poll
  last : x.timing.nCall.toNat ≤ x.calls
  cause :
    (∃ bytes, c = .answerGarbled l t bytes ∧ (∀ a, readAnswer x.drop bytes = some a → answerFits f a = false) ∧
      (x.phase = .waiting f since → (s.clock t).now ≤ since + answerLimit x.timing f)) ∨
    (c = .answerCharGap l t ∧ x.phase = .receiving f since) ∨
    (c = .answerWaitSilence l t ∧ x.phase = .waiting f since ∧ since + answerLimit x.timing f ≤ (s.clock t).now ∧
      (s.line l).silence + 1 < x.timing.downLimit.toNat)

/-- The state at time `t` in which line `l` has just heard an answer: its quiet time starts again and its silence count is 0
(R122, R133). -/
def State.heardAt (s : State) (l : LineNo) (t : Time) : State :=
  (s.clock t).modLine l fun e => { e with lastChar := (s.clock t).now, silence := 0 }

/-- The state at time `t` in which the answered transaction of line `l` has ended (R118, R133). -/
def State.answeredAt (s : State) (l : LineNo) (t : Time) : State :=
  (s.clock t).modLine l fun e =>
    { e with lastChar := (s.clock t).now, silence := 0, state := .idle, txn := none }

/-- The candidates of a COMMIT request with the deferral counts they have reached, in the order in which they are examined: deferred
entries before open-wave records, robots with PRIORITY set before the others (R66, R69). -/
def commitOrder (s : State) : List (MoveRecord × Nat) :=
  let first := fun c : MoveRecord × Nat => (s.robot c.1.robot).static.priority
  let late := s.deferred.map fun d => (d.record, d.count)
  let fresh := s.openWave.map fun m => (m, 0)
  late.filter first ++ fresh.filter first ++ late.filter (fun c => !first c) ++ fresh.filter fun c => !first c

/-- The members of the wave that is ARMING: after a COMMIT, those that it admitted. -/
def State.arming (s : State) : List Member :=
  match s.wave with
  | none => []
  | some w => if w.state = .arming then w.members else []

/-- A member as the decision of its outcome leaves it (R74, R94): CLOSED when it has no GO time, so that it has ended before
GO (log entry 28). -/
def Member.decided (m : Member) (o : Ending) (why : Reason) : Member :=
  { m with
    outcome := o, reason := why, deadline := none, stop := .none
    delivery := if m.goTime = none then .closed else m.delivery }

/-- A delivery state that no longer keeps an ARMING wave from being ARMED (R79). -/
def Delivery.isSettled (d : Delivery) : Prop := d = .accepted ∨ d = .closed

/-- From `s` to `u` robot `r`'s member is decided and stands written as `m`. It is out of its line's poll cycle, the other members
are kept, with the rest of the wave record but that an ARMING wave may have become ARMED (R79); no other robot, no move record and
no timebase changes (R74, R94, R95). That a robot has one member is kept by every step. -/
structure Decides (s u : State) (r : RobotNo) (m : Member) : Prop where
  member : m ∈ u.members
  decided : u.member? r = none
  kept : ∀ q ∈ s.members, q.robot ≠ r → q ∈ u.members
  wave : ∀ w, s.wave = some w → (w.members.map Member.robot).Nodup → ∃ x : WaveState,
    u.wave = some { w with state := x, members := w.members.map fun q => if q.robot = r then m else q } ∧
      (x = w.state ∨ w.state = .arming ∧ x = .armed ∧ ∀ q ∈ u.members, q.delivery.isSettled)
  cycle : ∀ p ∈ (u.line (s.robot r).static.line).cycle, p.robot ≠ r
  others : ∀ q, q ≠ r → u.robot q = s.robot q
  moves : u.openWave = s.openWave ∧ u.deferred = s.deferred ∧ u.waveCounter = s.waveCounter ∧ u.epoch = s.epoch

/-- From `s` to `u` robot `r`'s member `m` is decided with an outcome that leaves the robot's position unknown: the member is
written decided, the robot is UNCERTAIN at zero with that last outcome and keeps the rest of its record, the zones it held MOVING
are BLOCKED, and so is every other zone naming it that no other member's move holds (R9, R54). -/
structure EndsUncertain (s u : State) (r : RobotNo) (m : Member) (o : Ending) (why : Reason) : Prop extends
    Decides s u r (m.decided o why) where
  robot : u.robot r = { s.robot r with
    slot := .uncertain, believed := Position.zero, lastOutcome := o, lastReason := why }
  zones : ∀ z, (s.zone z).holder = .moving r → (u.zone z).holder = .blocked
  named : ∀ z, (s.zone z).names r = true → (u.zone z).holder = .blocked ∨
    ∃ q, q ≠ r ∧ (u.zone z).holder = .moving q ∧ (u.robot q).slot.inWave = true

/-- A robot as the confirmed arrival of its member `m` leaves it: IDLE at the target, with a GOTO's start pushed on a stack of at
most four, or the top of the stack gone after a RETRACE (R13, R14, R15, R98). -/
def Robot.arrived (b : Robot) (m : Member) : Robot :=
  { b with
    believed := m.plan.target, slot := .idle, lastOutcome := .arrived, lastReason := .none
    stack := match m.kind, m.plan.start with
      | .goto, some p => (p :: b.stack).take 4
      | .retrace, _ => b.stack.tail
      | _, _ => b.stack }

/-- From `s` to `u` the arrival of robot `r`'s member `m` is confirmed: the member is decided, the robot has arrived, and no zone
naming it stays held MOVING by it (R98). -/
structure Arrives (s u : State) (r : RobotNo) (m : Member) : Prop extends Decides s u r (m.decided .arrived .none) where
  robot : u.robot r = (s.robot r).arrived m
  zones : ∀ z, (s.zone z).names r = true → (u.zone z).holder ≠ .moving r

/-- The slot state of a robot returned to its rest state (R10). -/
def RestState.slot : RestState → SlotState
  | .uncertain => .uncertain
  | .idle => .idle

/-- From `s` to `u` robot `r`'s member is decided and written as `m`, and the robot returns to its rest state: IDLE where it was
believed to be, or UNCERTAIN at zero; no zone naming it stays held MOVING by it, and from UNCERTAIN every one is BLOCKED that no
other member's move holds (R9, R53, R54). -/
structure EndsAtRest (s u : State) (r : RobotNo) (m : Member) (o : Ending) (why : Reason) : Prop extends Decides s u r m where
  robot : u.robot r = { s.robot r with
    slot := (s.robot r).rest.slot, lastOutcome := o, lastReason := why
    believed := match (s.robot r).rest with
      | .idle => (s.robot r).believed
      | .uncertain => Position.zero }
  zones : ∀ z, (s.zone z).names r = true → (u.zone z).holder ≠ .moving r
  named : (s.robot r).rest = .uncertain → ∀ z, (s.zone z).names r = true → (u.zone z).holder = .blocked ∨
    ∃ q, q ≠ r ∧ (u.zone z).holder = .moving q ∧ (u.robot q).slot.inWave = true

/-- An ARMING wave has a delivery that is not settled: the test of R79 has been made. -/
def State.armingTested (s : State) : Prop :=
  ∀ w, s.wave = some w → w.state = .arming → ∃ m ∈ w.members, ¬m.delivery.isSettled

/-- Every outcome of a RUNNING or ABORTING wave is decided, so that it becomes DONE (R83). -/
def Wave.ended (w : Wave) : Prop := (w.state = .running ∨ w.state = .aborting) ∧ ∀ m ∈ w.members, m.outcome ≠ .none

/-- From `u` to `v` the chain commit at the DONE of wave `w` has taken every deferred entry and disposed of it. It leaves the open
wave, the robots without an entry, the zones' members, and all of a line but its normal list; with a member admitted it creates the
next wave, and with none it ends the chain and raises CHAIN_STUCK (R85, R86). -/
structure ChainCommits (u v : State) (w : Wave) : Prop where
  frame : v = { u with
    robots := v.robots, zones := v.zones, lines := v.lines, wave := v.wave, deferred := v.deferred,
    waveCounter := v.waveCounter, events := v.events }
  lines : ∀ l, v.line l = { u.line l with normal := (v.line l).normal }
  robots : ∀ q, u.inDeferred q = false → v.robot q = u.robot q
  zones : ∀ z, (v.zone z).memberA = (u.zone z).memberA ∧ (v.zone z).memberB = (u.zone z).memberB
  deferred : (v.deferred.map fun d => (d.record, d.count)).Sublist
    ((commitOrder { u with openWave := [] }).map fun c => (c.1, c.2 + 1))
  outcome : ∃ k : CommitCounts,
    k.admitted + k.deferred + k.dropped + k.null = u.deferred.length ∧ v.deferred.length = k.deferred ∧
    (k.admitted = 0 → v.wave = some { w with state := .done, chainRemaining := 0 } ∧ v.waveCounter = u.waveCounter ∧
      v.events.get .chainStuck = (u.events.get .chainStuck).raised w.number) ∧
    (k.admitted ≠ 0 → v.events.get .chainStuck = u.events.get .chainStuck ∧
      v.waveCounter = (if u.waveCounter = 0xFFFF then 1 else u.waveCounter + 1) ∧
      ∃ members : List Member, members.length = k.admitted ∧
        (members.map Member.robot).Sublist ((commitOrder { u with openWave := [] }).map fun c => c.1.robot) ∧
        (∀ q ∈ members, q.delivery = .listed ∧ q.outcome = .none ∧ (v.robot q.robot).slot = .arming) ∧
        v.wave = some { number := v.waveCounter, state := .arming, origin := .chain,
                        startMark := u.epoch.counter + w.chainLead.setWidth 32, lead := w.chainLead,
                        chainRemaining := w.chainRemaining - 1, chainLead := w.chainLead, counts := k,
                        members := members })

/-- From `u` to `v` wave `w`, whose last outcome is decided, becomes DONE: WAVE_DONE is raised, and the chain is examined. With none
remaining, or over an empty deferred list, nothing else changes but that the chain ends; otherwise a chain commit runs (R84). -/
structure WaveDone (u v : State) (w : Wave) : Prop where
  raised : v.events.get .waveDone = (u.events.get .waveDone).raised w.number
  events : ∀ c, c ∉ [EventClass.waveDone, .chainStuck, .deferDrop, .zoneConflict] → v.events.get c = u.events.get c
  masks : v.events.masks = u.events.masks
  chainEnds : w.chainRemaining = 0 ∨ u.deferred = [] →
    v = { u with wave := some { w with state := .done, chainRemaining := 0 }, events := v.events } ∧
      ∀ c, c ≠ .waveDone → v.events.get c = u.events.get c
  chains : w.chainRemaining ≠ 0 → u.deferred ≠ [] → ChainCommits u v w

/-- From `u` to `v` the wave goes on by its own rules: it becomes DONE when its last outcome is decided, and otherwise nothing
happens (R83, R84). -/
structure Completes (u v : State) : Prop where
  goesOn : (∀ w, u.wave = some w → ¬w.ended) → v = u
  done : ∀ w, u.wave = some w → w.ended → WaveDone u v w

/-- Command `c` decides: it leads from `s` to a state with property `p`, and from there the wave completes when that was its last
outcome. -/
def EndsIn (c : Instr) (s : State) (p : State → Prop) : Prop := ∃ u v, exec c s = .next v ∧ p u ∧ Completes u v

/-- The state in which the timer has taken a mark at a time (R143, R144). -/
def State.marked (s : State) (time : Nat) : State :=
  { s with epoch := { s.epoch with tLast := time, running := s.epoch.period, counter := s.epoch.counter + 1 } }

/-- From `s`, in which the mark has been taken, to `u` wave `w` starts (R81, R82): it is RUNNING; members LISTED are MISSED and
lose their DELIVER, members in flight are late, the others are kept; the GO is pending with the excluded drop on exactly the lines
with an ARMED member; and WAVE_LATE is raised once if any was missed or late. -/
structure WaveStarts (s u : State) (w : Wave) : Prop where
  frame : u = { s with robots := u.robots, zones := u.zones, lines := u.lines, wave := u.wave, events := u.events }
  wave : u.wave = some { w with
    state := .running
    members := w.members.map fun m =>
      if m.outcome = .none ∧ m.delivery = .listed then { m.decided .missed .none with delivery := .closed }
      else if m.outcome = .none ∧ m.delivery = .inFlight then { m with late := true }
      else m }
  missed : ∀ m ∈ w.members, m.outcome = .none → m.delivery = .listed →
    (u.robot m.robot).lastOutcome = .missed ∧ (u.robot m.robot).lastReason = .none ∧
    (u.robot m.robot).slot = (s.robot m.robot).rest.slot ∧
    ∀ x ∈ (u.line (s.robot m.robot).static.line).normal, x.robot = m.robot → x.deliver = false
  others : ∀ r, (∀ m ∈ w.members, m.outcome = .none → m.delivery = .listed → m.robot ≠ r) → u.robot r = s.robot r
  go : ∀ l, (s.line l).state ≠ .down →
    let stays := fun m : Member => m ∈ w.members ∧ m.outcome = .none ∧ m.delivery ≠ .listed ∧ m.line = l
    ((∃ m, stays m ∧ (s.robot m.robot).slot = .armed) →
      ∃ g, (u.line l).goPending = some g ∧ g.wave = w.number ∧
        (∀ m, stays m → m.delivery = .inFlight → (∀ q, stays q → q.late = true ∨ q.delivery = .inFlight → q = m) →
          g.excluded = m.drop) ∧
        ((∀ q, stays q → q.late = false ∧ q.delivery ≠ .inFlight) → g.excluded = 0)) ∧
    ((∀ m, stays m → (s.robot m.robot).slot ≠ .armed) → (u.line l).goPending = (s.line l).goPending)
  late : u.events.get .waveLate =
    if ∃ m ∈ w.members, m.outcome = .none ∧ (m.delivery = .listed ∨ m.delivery = .inFlight) then
      (s.events.get .waveLate).raised w.number
    else s.events.get .waveLate
  events : u.events.masks = s.events.masks ∧ ∀ c, c ≠ .waveLate → c ≠ .zoneConflict → u.events.get c = s.events.get c

/-- The one piece of work that a line carries is of kind `k`: the transaction in flight, not stale, or the only entry of its
lists; a DELIVER may have a READ joined to it. -/
def OnlyWork (e : Line) (k : TxnKind) : Prop :=
  (∃ x, e.txn = some x ∧ x.kind = k ∧ x.stale = false ∧ e.urgent = [] ∧ e.normal = []) ∨
  (e.txn = none ∧ e.normal = [] ∧ ∃ r, k = .clear r ∧ e.urgent = [⟨r, .clear⟩] ∨ k = .haltSingle r ∧ e.urgent = [⟨r, .halt⟩]) ∨
  e.txn = none ∧ e.urgent = [] ∧ ∃ r a b,
    k = .deliver r ∧ e.normal = [⟨r, true, a, b⟩] ∨ k = .read r a b ∧ (a || b) = true ∧ e.normal = [⟨r, false, a, b⟩]

/-- The engine's state and next frame after an attempt at frame `f` is used without a final answer, while attempts remain for
a short transaction (R126 to R128). -/
def afterAttempt (x : Txn) : FrameKind → EngineState × FrameKind
  | .call => if x.calls < x.timing.nCall.toNat then (.calling, .call) else (.ending, .endFrame)
  | .body _ => (.ending, .endFrame)
  | .readRequest => (.ending, .endFrame)
  | .clear => (.awaiting, .clear)
  | .halt => (.awaiting, .halt)
  | .poll => (.awaiting, .poll)
  | .endFrame => (.ending, .endFrame)
  | .go g => (.sending, .go g)
  | .haltAll => (.sending, .haltAll)

/-- An attempt at frame `f` can be used without ending the transaction at once: a call, a body, a read request, or a short
frame with attempts left (R126 to R128). -/
def attemptLeft (x : Txn) (f : FrameKind) : Prop :=
  f.awaits = true ∧ (f = .clear ∨ f = .halt ∨ f = .poll → x.calls < x.timing.nCall.toNat)

/-! ### Laws of the lists and records -/

/-- No two present records share a line and drop (R2). -/
def AddressesOk (s : State) : Prop :=
  ∀ r q : RobotNo, (s.robot r).static.present = true → (s.robot q).static.present = true →
    (s.robot r).static.line = (s.robot q).static.line → (s.robot r).static.drop = (s.robot q).static.drop → r = q

/-- A link names a zone only if that zone's entry lists the robot as one of its two members, and no zone stands in two
links of a robot (R4, R5). -/
def LinksOk (s : State) : Prop :=
  ∀ r : RobotNo, (s.robot r).static.present = true →
    (∀ k ∈ (s.robot r).static.links, (s.zone k.zone).names r = true) ∧
      ((s.robot r).static.links.map Link.zone).Nodup

/-- A robot has at most one move record in the open wave and the deferred list together, and at most one in the wave record
(R63). -/
def MovesOk (s : State) : Prop :=
  (s.openWave.map MoveRecord.robot ++ s.deferred.map (fun d => d.record.robot)).Nodup ∧
    (s.members.map Member.robot).Nodup

/-- A record is ABSENT exactly when its present field is no (R1). -/
def PresenceOk (s : State) : Prop := ∀ r : RobotNo, (s.robot r).slot = .absent ↔ (s.robot r).static.present = false

/-- The robots in a wave state are those of the undecided members, and a DONE wave has no undecided member (R8, R74, R84). -/
def MembersOk (s : State) : Prop :=
  (∀ r : RobotNo, (s.robot r).slot.inWave = true ↔ (s.member? r).isSome = true) ∧
    ∀ w, s.wave = some w → w.state = .done → w.undecided = 0

/-- Each robot has at most one entry in the urgent list, the normal list and the poll cycle of a line, and every entry of
the normal list holds work (R119, R120). -/
def ListsOk (s : State) : Prop :=
  ∀ l : LineNo, ((s.line l).urgent.map UrgentEntry.robot).Nodup ∧ ((s.line l).normal.map NormalEntry.robot).Nodup ∧
    (∀ x ∈ (s.line l).normal, x.live = true) ∧ ((s.line l).cycle.map PollEntry.robot).Nodup

/-- A wave that is RUNNING or ABORTING has a member whose outcome is undecided (R83). -/
def WaveOpen (s : State) : Prop :=
  ∀ w, s.wave = some w → w.state = .running ∨ w.state = .aborting → w.undecided ≠ 0

end Sys2Proof.Machine
end

