-- ==== Sys2Proof/Certificates/Slice0/Obligations.lean ====
section
/-!
DEFINITION. The statements about the model, each named for what it says. A statement whose docstring names a log entry states
the model's choice there; the others formalise rules of spec/.
-/

open Sys2Proof Sys2Proof.Machine

/-! ### The machine -/

/-- A step carries out the command at the front of the queue on the state with the queue's rest; on an empty queue the part
idles (log entry 7: the model's own queue). -/
def Obligations.StepRunsTheFrontCommand : Prop :=
  ∀ s : State,
    (∀ c rest, s.pending = c :: rest → step s = exec c { s with pending := rest }) ∧
      (s.pending = [] → step s = .next s)

/-- Every command, in every state, is carried out to a next state, and none touches the queue of waiting commands, which is the
model's own (log entries 1 and 25). -/
def Obligations.EveryCommandCompletes : Prop :=
  ∀ (c : Instr) (s : State), ∃ t, exec c s = .next t ∧ t.pending = s.pending

/-- The fall of RESET_N loses the frame being received, the reply being sent and the queue without a count; while RESET_N
is low ATTN is deasserted, the drivers are released, and no command but POWER_ON_RESET changes the part (R172; that other
commands do nothing is log entry 8, the model's choice). -/
def Obligations.ResetHeldLow : Prop :=
  (∀ s : State, s.resetLow = false →
    exec .resetNAssert s = .next { s with
      resetLow := true, trunk := { s.trunk with rx := .hunt, queue := [], disp := .waiting } }) ∧
  ∀ s : State, s.resetLow = true →
    attnOutput s = false ∧ (∀ l, driverEnable s l = false) ∧ ∀ c : Instr, c ≠ .powerOnReset → exec c s = .next s

/-- Power-on reset leaves every block at its power-on values (R18, R22, R24, R61, R90, R137, R140, R153, R172, R181). The
commands waiting are the model's own queue (log entries 1 and 25), the last character of a line is at 0, the release (log entry 9),
and the two flags of a zone are the model's own (log entry 35). -/
def Obligations.PowerOnValues : Prop :=
  ∀ s : State, ∃ t, exec .powerOnReset s = .next t ∧ t.pending = s.pending ∧ t.resetLow = false ∧ t.timer = 0 ∧
    (∀ r, (t.robot r).static = RobotStatic.absent ∧ (t.robot r).slot = .absent ∧ (t.robot r).believed = Position.zero ∧
      (t.robot r).reported = Pair.zero ∧ (t.robot r).reportedValid = false ∧ (t.robot r).fault = 0 ∧
      (t.robot r).stack = [] ∧ (t.robot r).rest = .uncertain ∧ (t.robot r).lastOutcome = .none ∧
      (t.robot r).lastReason = .none) ∧
    (∀ (c : Fin 256) (k : Fin 17), t.curves[c][k] = 0) ∧
    (∀ p, t.profile p = { vHub := 100, vElbow := 100, nMin := 20, grace := 500, homeLimit := 60000 }) ∧
    (∀ z, t.zone z = { memberA := none, memberB := none, holder := .free, joinedA := false, joinedB := false }) ∧
    t.openWave = [] ∧ t.deferred = [] ∧ t.wave = none ∧ t.waveCounter = 0 ∧
    (∀ l, (t.line l).state = .idle ∧ (t.line l).txn = none ∧ (t.line l).residue = none ∧ (t.line l).urgent = [] ∧
      (t.line l).normal = [] ∧ (t.line l).cycle = [] ∧ (t.line l).haltPending = false ∧ (t.line l).goPending = none ∧
      (t.line l).silence = 0 ∧ (t.line l).lastChar = 0 ∧ (t.line l).counters = ⟨0, 0, 0, 0⟩ ∧
      (t.line l).timing =
        { tCall := 300, tBody := 2000, tShort := 300, tRead := 1500, tTurn := 0, tGap := 40, nCall := 4, nBody := 3,
          pollPeriod := 50, downLimit := 8 }) ∧
    t.epoch = { mode := .free, period := 100000, window := 2000, running := 100000, tLast := 0, counter := 0,
                lock := .none, offset := 0 } ∧
    t.trunk = { rx := .hunt, queue := [], disp := .waiting, badCheck := 0, overrun := 0, gapAbandoned := 0 } ∧
    (∀ c, t.events.get c = ⟨0, 0, 0⟩) ∧ t.events.masks = ⟨false, false, false, false⟩ ∧ t.events.attention = 0

/-! ### Laws that every step keeps -/

/-- The state right after power-on reset obeys every law that steps keep: ranges, capacities, the Robot Table, moves, members,
lists and waves. -/
def Obligations.ResetObeysTheLaws : Prop :=
  (EventsOk State.reset.events ∧ TrunkOk State.reset.trunk ∧ DeferredOk State.reset.deferred ∧ TablesOk State.reset) ∧
    (RobotsOk State.reset ∧ AddressesOk State.reset ∧ LinksOk State.reset) ∧
    (MovesOk State.reset ∧ PresenceOk State.reset ∧ MembersOk State.reset ∧ ListsOk State.reset ∧ WaveOpen State.reset)

/-- Every step keeps the ranges and capacities: a class that is not pending has details 0 (R173); the inbound queue holds at
most 8 frames and none waits in WAITING (R157, R159); the deferred list holds at most 64 entries, of counts 1 to 7 (R65);
the loaded tables lie in their ranges (R21, R23, R137, R142). -/
def Obligations.StepsKeepRangesAndCapacities : Prop :=
  ∀ s t : State, step s = .next t →
    (EventsOk s.events → EventsOk t.events) ∧ (TrunkOk s.trunk → TrunkOk t.trunk) ∧
      (DeferredOk s.deferred → DeferredOk t.deferred) ∧ (TablesOk s → TablesOk t)

/-- Every step keeps the laws of the Robot Table: absent records are zero and present ones in their ranges (R1, R5), no two
present records share a line and drop (R2), and links name zones whose entries list their robot (R4). -/
def Obligations.StepsKeepTheRobotTable : Prop :=
  ∀ s t : State, step s = .next t →
    (RobotsOk s → RobotsOk t) ∧ (AddressesOk s → AddressesOk t) ∧ (LinksOk s → LinksOk t)

/-- Every step keeps the laws of moves and members together: a robot has at most one record in the open wave and the deferred
list and at most one member (R63), a record is ABSENT exactly when it is not present (R1), and the robots in wave states are
those of the undecided members (R8, R74, R84). -/
def Obligations.StepsKeepMovesAndMembers : Prop :=
  ∀ s t : State, step s = .next t →
    MovesOk s ∧ PresenceOk s ∧ MembersOk s → MovesOk t ∧ PresenceOk t ∧ MembersOk t

/-- Every step keeps a robot's work unique on a line: at most one urgent entry, one normal entry and one place in the poll
cycle, and no normal entry without work (R95, R119, R120); and it keeps a RUNNING or ABORTING wave with an undecided member,
since the wave becomes DONE with the decision of its last member (R83). -/
def Obligations.StepsKeepListsUniqueAndWavesOpen : Prop :=
  ∀ s t : State, step s = .next t → (ListsOk s → ListsOk t) ∧ (WaveOpen s → WaveOpen t)

/-! ### The trunk port -/

/-- A request command acts as its good frame completing in FRAME does; while a reply is being sent it joins the queue, and
at a full queue it is discarded, counted and raised (R155, R157; the command standing for its frame is log entry 2). -/
def Obligations.RequestCommandIsItsFrame : Prop :=
  ∀ (c : Instr) (f : Frame) (s : State), requestFrame c = some f → s.resetLow = false →
    (s.trunk.rx = .frame → exec c s = exec (.trunkFrameComplete f.dest f.kind f.payload (crc f.checked)) s) ∧
    ∀ r, s.trunk.rx ≠ .skip → f.payload.length ≤ 512 → s.trunk.disp = .replying r →
      exec c s =
        if s.trunk.queue.length < 8 then
          .next { s with trunk := { s.trunk with rx := .hunt, queue := s.trunk.queue ++ [f] } }
        else .next { s with
          trunk := { s.trunk with rx := .hunt, overrun := countUp s.trunk.overrun }
          events := s.events.put .trunkError ((s.events.get .trunkError).raised 2) }

/-- A complete frame with a bad CRC is discarded, counted and raised with BADCHECK; a good one that fails a check of R161 is
answered ERROR with the first reason, and nothing else changes; a good one that passes them is carried out whole by its owner,
and its reply, with the attention value after its own effects, is begun. A LOAD whose table kind is not 1 to 6, a READ whose kind
is not 1 to 10 and a FLAGS of an undefined operation are answered ERROR (KIND) and change nothing (R11, R155, R158, R159, R160,
R161, R162, R165, R167); that a FLAGS with a bad range too is answered ERROR (INDEX) is log entry 37, read from R11. -/
def Obligations.FramesAreChecked : Prop :=
  ∀ (dest : Half) (kind : Byte) (payload : List Byte) (check : Half) (s : State),
    s.resetLow = false → s.trunk.rx = .frame → payload.length ≤ 512 →
    (check ≠ crc (Frame.checked ⟨dest, kind, payload⟩) →
      exec (.trunkFrameComplete dest kind payload check) s = .next { s with
        trunk := { s.trunk with rx := .hunt, badCheck := countUp s.trunk.badCheck }
        events := s.events.put .trunkError ((s.events.get .trunkError).raised 1) }) ∧
    (check = crc (Frame.checked ⟨dest, kind, payload⟩) → s.trunk.disp = .waiting → s.trunk.queue = [] →
      (∀ why, frameFault ⟨dest, kind, payload⟩ = some why →
        exec (.trunkFrameComplete dest kind payload check) s = .next (s.deny dest kind why)) ∧
      (frameFault ⟨dest, kind, payload⟩ = none → ∃ q, parseRequest ⟨dest, kind, payload⟩ = .ok q ∧
        let v := perform { s with trunk := { s.trunk with rx := .hunt } } q
        exec (.trunkFrameComplete dest kind payload check) s = .next { v.state with
          trunk := { s.trunk with
            rx := .hunt
            disp := .replying
              { dest := dest, kind := kind, status := v.status, attention := v.state.events.attention,
                payload := v.payload } } }) ∧
      let denied := fun why : Reason =>
        exec (.trunkFrameComplete dest kind payload check) s = .next (s.deny 0xFFFF kind why)
      (∀ (table : Byte) (first count : Half) (records : List Byte), dest = 0xFFFF →
        (kind = 16 → payload = table :: (le16 first ++ le16 count ++ records) → table = 0 ∨ 6 < table.toNat →
          denied .kind) ∧
        (kind = 17 → payload = table :: (le16 first ++ le16 count) → table = 0 ∨ 10 < table.toNat → denied .kind)) ∧
      ∀ (first last : Half) (op mask : Byte), dest = 0xFFFF → kind = 18 → payload = le16 first ++ le16 last ++ [op, mask] →
        op = 0 ∨ 3 < op.toNat →
        denied (if 479 < first.toNat ∨ 479 < last.toNat ∨ last.toNat < first.toNat then .index else .kind))

/-- The receiving half: A5h in HUNT begins a frame; a length above 512 is discarded, counted and raised, and leads to SKIP;
a gap abandons the frame with a count and no event; quiet in SKIP leads to HUNT (R154, R156, R158). That in the other states
these change nothing, being offered without their condition, is log entry 5, the model's choice. -/
def Obligations.ReceiverMoves : Prop :=
  ∀ s : State, s.resetLow = false →
    exec .startCharacter s =
      .next (if s.trunk.rx = .hunt then { s with trunk := { s.trunk with rx := .frame } } else s) ∧
    (∀ n : Half, 512 < n.toNat → exec (.trunkLengthOversize n) s =
      .next (if s.trunk.rx = .frame then
          { s with
            trunk := { s.trunk with rx := .skip, badCheck := countUp s.trunk.badCheck }
            events := s.events.put .trunkError ((s.events.get .trunkError).raised 1) }
        else s)) ∧
    exec .trunkGapAbandon s =
      .next (if s.trunk.rx = .frame then
          { s with trunk := { s.trunk with rx := .hunt, gapAbandoned := countUp s.trunk.gapAbandoned } }
        else s) ∧
    exec .trunkSkipQuiet s = .next (if s.trunk.rx = .skip then { s with trunk := { s.trunk with rx := .hunt } } else s)

/-- When the last character of a reply has gone out, the dispatching half returns to WAITING; the frame at the head of the
queue is taken at once, carried out whole, and its reply, with the attention value after its own effects, is begun (R159,
R162). -/
def Obligations.ReplyEndsAndNextIsTaken : Prop :=
  ∀ (s : State) (r : Reply), s.resetLow = false → s.trunk.disp = .replying r → (r.kind ≠ 25 ∨ r.status ≠ .ok) →
    (s.trunk.queue = [] → exec .replySent s = .next { s with trunk := { s.trunk with disp := .waiting } }) ∧
    ∀ f rest, s.trunk.queue = f :: rest →
      let v := serve { s with trunk := { s.trunk with queue := rest, disp := .waiting } } f
      exec .replySent s = .next { v.state with
        trunk := { s.trunk with
          queue := rest
          disp := .replying
            { dest := f.dest, kind := f.kind, status := v.status, attention := v.state.events.attention,
              payload := v.payload } } }

/-- RESET is answered OK and changes nothing; the end of its reply applies controller reset: the queue is emptied, every
present robot is UNCERTAIN at zero with outcome RESET and keeps its static fields, reports, fault code and stack, the
lists and the wave record go, every line is IDLE with its HALT broadcast pending, every zone with a present member is
BLOCKED and every other FREE, and the events are cleared; tables, timebase and counters are kept (R19, R62, R90, R141,
R170, R171, R181). What the abandoned transaction leaves on its line, going to no rule, is log entry 15 (DEDUCED from R136), and
that an engine is IDLE at once while a GO or HALT broadcast still goes out is log entry 36, the model's choice between R129 and
R141. -/
def Obligations.ControllerResetResult : Prop :=
  (∀ s : State, Ready s → exec (.reset 0xFFFF) s = .next (s.answer 0xFFFF 25 .ok [])) ∧
  ∀ (s : State) (r : Reply), s.resetLow = false → s.trunk.disp = .replying r → r.kind = 25 → r.status = .ok →
    ∃ t, exec .replySent s = .next t ∧
      t.trunk = { s.trunk with queue := [], disp := .waiting } ∧
      t.timer = s.timer ∧ t.epoch = s.epoch ∧ t.curves = s.curves ∧ t.profiles = s.profiles ∧
      t.openWave = [] ∧ t.deferred = [] ∧ t.wave = none ∧ t.waveCounter = s.waveCounter ∧
      (∀ q, (s.robot q).slot = .absent → t.robot q = s.robot q) ∧
      (∀ q, (s.robot q).slot ≠ .absent → t.robot q =
        { s.robot q with slot := .uncertain, believed := Position.zero, rest := .uncertain, lastOutcome := .reset,
                         lastReason := .none }) ∧
      (∀ l, (t.line l).state = .idle ∧ (t.line l).txn = none ∧ (t.line l).urgent = [] ∧ (t.line l).normal = [] ∧
        (t.line l).cycle = [] ∧ (t.line l).goPending = none ∧ (t.line l).haltPending = true ∧ (t.line l).silence = 0 ∧
        (t.line l).timing = (s.line l).timing ∧ (t.line l).counters = (s.line l).counters ∧
        (t.line l).lastChar = (s.line l).lastChar ∧
        (∀ ρ, (s.line l).residue = some ρ → (t.line l).residue = some { ρ with handOver := false }) ∧
        ((s.line l).residue = none → (t.line l).residue = match (s.line l).txn with
          | none => none
          | some x => match x.phase with
            | .gap _ _ => none
            | .sending _ => some ⟨x, false⟩
            | .waiting _ _ => some ⟨x, false⟩
            | .receiving _ _ => some ⟨x, false⟩)) ∧
      (∀ z, (t.zone z).memberA = (s.zone z).memberA ∧ (t.zone z).memberB = (s.zone z).memberB ∧
        (t.zone z).holder =
          if (∃ q, (s.zone z).names q = true ∧ (s.robot q).slot ≠ .absent) then .blocked else .free) ∧
      (∀ c, t.events.get c = ⟨0, 0, 0⟩) ∧ t.events.masks = ⟨false, false, false, false⟩

/-! ### Move requests -/

/-- MOVE, RETRACE and HOME test the profile number, then that the robot is present, then its ENABLE flag; a request that
fails is answered with that reason and changes nothing (R25, R31, R32, R160). -/
def Obligations.MoversAreTested : Prop :=
  ∀ (s : State) (r : RobotNo) (hub elbow : Word) (p : Byte), Ready s →
    let d := halfOf r.val
    let answers := fun f : Byte → State =>
      exec (.move d hub elbow p) s = .next (f 1) ∧ exec (.retrace d p) s = .next (f 2) ∧
        exec (.home d p) s = .next (f 3)
    (16 ≤ p.toNat → answers fun k => s.deny d k .index) ∧
      (p.toNat < 16 → (s.robot r).slot = .absent → answers fun k => s.refuse d k .absent 0) ∧
      (p.toNat < 16 → (s.robot r).slot ≠ .absent → (s.robot r).static.enable = false →
        answers fun k => s.refuse d k .disabled 0)

/-- A MOVE for a present, enabled robot is clamped to the soft limits, refused FENCED when the clamped hub target lies in the
forbidden set, then RANGE when a target step count leaves 32 bits; otherwise its GOTO record joins the open wave at the
tail, what the robot held is withdrawn, and the reply returns target, steps and flags, CLAMPED when an axis was clamped
(R25, R26, R27, R29, R30). -/
def Obligations.MoveOutcome : Prop :=
  ∀ (s : State) (r : RobotNo) (hub elbow : Word) (p : ProfileNo), Ready s →
    (s.robot r).slot ≠ .absent → (s.robot r).static.enable = true →
    let d := halfOf r.val
    let b := (s.robot r).static
    let h := clampInt b.hubMin.toInt b.hubMax.toInt hub.toInt
    let e := clampInt b.elbowMin.toInt b.elbowMax.toInt elbow.toInt
    let q := targetSteps s b ⟨BitVec.ofInt 32 h, BitVec.ofInt 32 e⟩
    let g : GotoTarget :=
      { angles := ⟨BitVec.ofInt 32 h, BitVec.ofInt 32 e⟩, steps := ⟨BitVec.ofInt 32 q.1, BitVec.ofInt 32 q.2⟩,
        hubClamped := h ≠ hub.toInt, elbowClamped := e ≠ elbow.toInt }
    exec (.move d hub elbow (byteOf p.val)) s = .next (
      if forbidden b h then s.refuse d 1 .fenced 0
      else if q.1 < -2147483648 ∨ 2147483647 < q.1 ∨ q.2 < -2147483648 ∨ 2147483647 < q.2 then s.refuse d 1 .range 0
      else (s.placed ⟨r, .goto g, p⟩).answer d 1 (if g.hubClamped || g.elbowClamped then .clamped else .ok)
        (le32 g.angles.hub ++ le32 g.angles.elbow ++ le32 g.steps.hub ++ le32 g.steps.elbow ++
          [replyFlags g.hubClamped g.elbowClamped (s.inOpen r || s.inDeferred r)]))

/-- A RETRACE for a present, enabled robot is refused EMPTY when its retrace stack is empty; otherwise its record joins the
open wave and the reply gives REPLACED and the stack depth. A HOME is always taken, and its reply gives REPLACED (R30,
R31, R32). -/
def Obligations.RetraceAndHomeOutcome : Prop :=
  ∀ (s : State) (r : RobotNo) (p : ProfileNo), Ready s →
    (s.robot r).slot ≠ .absent → (s.robot r).static.enable = true →
    let d := halfOf r.val
    let replaced := replyFlags false false (s.inOpen r || s.inDeferred r)
    exec (.retrace d (byteOf p.val)) s = .next (
      if (s.robot r).stack = [] then s.refuse d 2 .empty 0
      else (s.placed ⟨r, .retrace, p⟩).answer d 2 .ok [replaced, byteOf (s.robot r).stack.length]) ∧
    exec (.home d (byteOf p.val)) s = .next ((s.placed ⟨r, .home, p⟩).answer d 3 .ok [replaced])

/-- CANCEL takes the robot's record from the open wave or the deferred list, sets its last outcome to WITHDRAWN and names the
list, the kind and the deferral count; with neither it is refused NOTFOUND (R64). -/
def Obligations.CancelOutcome : Prop :=
  ∀ (s : State) (r : RobotNo), Ready s →
    let d := halfOf r.val
    (∀ m ∈ s.openWave, m.robot = r → (∀ x ∈ s.openWave, x.robot = r → x = m) →
      exec (.cancel d) s = .next ((s.withdrawn r).answer d 4 .ok [1, m.what.kind.code, 0])) ∧
    (∀ x ∈ s.deferred, x.record.robot = r → (∀ y ∈ s.deferred, y.record.robot = r → y = x) →
      (∀ m ∈ s.openWave, m.robot ≠ r) →
      exec (.cancel d) s = .next ((s.withdrawn r).answer d 4 .ok [2, x.record.what.kind.code, byteOf x.count])) ∧
    ((∀ m ∈ s.openWave, m.robot ≠ r) → (∀ x ∈ s.deferred, x.record.robot ≠ r) →
      exec (.cancel d) s = .next (s.refuse d 4 .notFound 0))

/-- HALT and REFRESH are refused ABSENT, then LINE_DOWN; otherwise they are QUEUED. HALT lists a HALT single by the merge
rule and, for an ARMED or MOVING robot with an undecided member, makes it STOPPING, takes it out of the poll cycle, cancels
its deadline and begins its read-back; REFRESH lists a READ and changes nothing else (R109, R111, R119, R120). -/
def Obligations.HaltAndRefreshOutcome : Prop :=
  ∀ (s : State) (r : RobotNo), Ready s →
    let d := halfOf r.val
    let l := (s.robot r).static.line
    ((s.robot r).slot = .absent →
      exec (.halt d) s = .next (s.refuse d 5 .absent 0) ∧ exec (.refresh d) s = .next (s.refuse d 6 .absent 0)) ∧
    ((s.robot r).slot ≠ .absent → (s.line l).state = .down →
      exec (.halt d) s = .next (s.refuse d 5 .lineDown 0) ∧ exec (.refresh d) s = .next (s.refuse d 6 .lineDown 0)) ∧
    ((s.robot r).slot ≠ .absent → (s.line l).state ≠ .down →
      exec (.refresh d) s =
        .next ((s.modLine l fun e => { e with normal := offerReadTo e.normal r true false }).answer d 6 .queued []) ∧
      (((s.robot r).slot = .armed ∨ (s.robot r).slot = .moving) → (∃ m ∈ s.members, m.robot = r ∧ m.outcome = .none) →
        exec (.halt d) s =
          .next ((((s.modRobot r fun b => { b with slot := .stopping }).modMember r fun m =>
              { m with deadline := none, stop := .halt 1 }).modLine l fun e =>
              { e with urgent := offerHaltTo e.urgent r, cycle := e.cycle.filter fun x => x.robot ≠ r }).answer d 5
              .queued [])) ∧
      ((¬((s.robot r).slot = .armed ∨ (s.robot r).slot = .moving) ∨ ∀ m ∈ s.members, m.robot = r → m.outcome ≠ .none) →
        exec (.halt d) s =
          .next ((s.modLine l fun e => { e with urgent := offerHaltTo e.urgent r }).answer d 5 .queued [])))

/-! ### Reports, reads and loads -/

/-- REPORT and STATUS change nothing and hold their values at the places of 10.3 and 10.5. REPORT, 108 bytes: the robot's record,
the kinds, counts, wave number and remaining intervals of its open-wave record, deferred entry and member of the active wave, and
four stack entries, zero beyond the depth. STATUS, 93 bytes: list sizes, wave fields, timebase, four line blocks, the port's counters
and queue, class counts, masks and attention value (R17, R169, R182). An ABSENT robot's rest state code 0 and empty stack are log
entry 22, read from R17. -/
def Obligations.ReportAndStatus : Prop :=
  ∀ s : State,
    (Ready s → ∀ r : RobotNo, ∃ P : List Byte,
      exec (.report (halfOf r.val)) s = .next (s.answer (halfOf r.val) 7 .ok P) ∧ P.length = 108 ∧
      let b := s.robot r
      u8 P 4 = b.slot.code ∧ u8 P 34 = b.lastOutcome.code ∧ u8 P 35 = b.lastReason.code ∧
      (b.slot = .absent → ∀ i, i ≠ 4 → i ≠ 34 → i ≠ 35 → u8 P i = 0) ∧
      (b.slot ≠ .absent →
        u8 P 0 = boolByte b.static.present ∧ u8 P 1 = byteOf b.static.line.val ∧ u8 P 2 = b.static.drop ∧
        ((u8 P 3).getLsbD 0 = b.static.enable ∧ (u8 P 3).getLsbD 1 = b.static.priority ∧ (u8 P 3).toNat < 4) ∧
        u8 P 5 = b.rest.code ∧ u8 P 6 = boolByte (decide (b.slot = .idle)) ∧ u8 P 7 = boolByte b.reportedValid ∧
        u32 P 8 = b.believed.angles.hub ∧ u32 P 12 = b.believed.angles.elbow ∧
        u32 P 16 = b.believed.steps.hub ∧ u32 P 20 = b.believed.steps.elbow ∧
        u32 P 24 = b.reported.hub ∧ u32 P 28 = b.reported.elbow ∧ u8 P 32 = b.fault ∧
        u8 P 33 = byteOf b.stack.length ∧
        u8 P 36 = (match s.openWave.find? fun m => m.robot = r with | some m => m.what.kind.code | none => 0) ∧
        (match s.deferred.find? fun d => d.record.robot = r with
          | some d => u8 P 37 = byteOf d.count ∧ u8 P 38 = 10
          | none => u8 P 37 = 0 ∧ u8 P 38 = 0) ∧
        (∀ w m, s.wave = some w → w.state ≠ .done → (w.members.find? fun q => q.robot = r) = some m →
          u8 P 39 = m.kind.code ∧ u16 P 40 = w.number ∧ u16 P 42 = if b.slot = .moving then m.remaining else 0) ∧
        ((∀ w, s.wave = some w → w.state ≠ .done → ∀ m ∈ w.members, m.robot ≠ r) →
          u8 P 39 = 0 ∧ u16 P 40 = 0 ∧ u16 P 42 = 0) ∧
        ∀ i, i < 4 →
          let p := b.stack.getD i Position.zero
          u32 P (44 + 16 * i) = p.angles.hub ∧ u32 P (48 + 16 * i) = p.angles.elbow ∧
            u32 P (52 + 16 * i) = p.steps.hub ∧ u32 P (56 + 16 * i) = p.steps.elbow)) ∧
    (Ready s → exec (.status 0xFFFF) s = .next (s.answer 0xFFFF 23 .ok (statusBytes s))) ∧
    let P := statusBytes s
    P.length = 93 ∧ u16 P 0 = halfOf s.openWave.length ∧ u8 P 2 = byteOf s.deferred.length ∧
      (match s.wave with
        | none => u16 P 3 = 0 ∧ u8 P 5 = 0 ∧ u32 P 6 = 0 ∧ u16 P 10 = 0
        | some w => u16 P 3 = w.number ∧ u8 P 5 = w.state.code ∧ u32 P 6 = w.startMark ∧
          u16 P 10 = halfOf (w.members.filter fun m => decide (m.outcome = .none)).length) ∧
      u32 P 12 = s.epoch.counter ∧ u8 P 16 = s.epoch.lock.code ∧ u32 P 17 = s.epoch.offset ∧
      (∀ l : LineNo,
        let o := 21 + 13 * l.val
        let e := s.line l
        u8 P o = e.state.code ∧ u8 P (o + 1) = byteOf e.urgent.length ∧ u8 P (o + 2) = byteOf e.normal.length ∧
          u8 P (o + 3) = byteOf e.cycle.length ∧
          ((u8 P (o + 4)).getLsbD 0 = e.haltPending ∧ (u8 P (o + 4)).getLsbD 1 = e.goPending.isSome ∧
            (u8 P (o + 4)).toNat < 4) ∧
          u16 P (o + 5) = e.counters.transactions ∧ u16 P (o + 7) = e.counters.retries ∧
          u16 P (o + 9) = e.counters.timeouts ∧ u16 P (o + 11) = e.counters.garbled) ∧
      u16 P 73 = s.trunk.badCheck ∧ u16 P 75 = s.trunk.overrun ∧ u16 P 77 = s.trunk.gapAbandoned ∧
      u8 P 79 = byteOf s.trunk.queue.length ∧
      (∀ c : EventClass, u8 P (80 + c.idx.val) = (s.events.get c).count) ∧
      ((u8 P 91).getLsbD 0 = s.events.masks.fault ∧ (u8 P 91).getLsbD 1 = s.events.masks.timing ∧
        (u8 P 91).getLsbD 2 = s.events.masks.flow ∧ (u8 P 91).getLsbD 3 = s.events.masks.link ∧ (u8 P 91).toNat < 16) ∧
      u8 P 92 = s.events.attention

/-- Each READ is answered ERROR (INDEX) for an empty run or one that leaves the table, ERROR (LENGTH) when the records exceed
512 bytes, and otherwise OK with the records of the run in turn, each of its kind's size; it changes nothing (R20, R22, R24,
R60, R67, R89, R137, R152, R164, R167). The read-only records hold their fields at the places of 10.5: ROBOT_STATE is the first 44
bytes of the robot's REPORT. With no wave record, and at a WAVE position beyond the members, the fields whose value the spec does
not give hold one of the values the field can hold: a code sent is a defined one (R182; free values, log entries 14 and 29). -/
def Obligations.ReadsAnswer : Prop :=
  (∀ (s : State) (first count : Half), Ready s →
    let reads := fun (c : Instr) (table : Byte) (size width lead : Nat) =>
      exec c s = .next (
        if count.toNat = 0 ∨ size < first.toNat + count.toNat then s.deny 0xFFFF 17 .index
        else if 512 < lead + count.toNat * width then s.deny 0xFFFF 17 .length
        else s.answer 0xFFFF 17 .ok (readPayload s table first.toNat count.toNat)) ∧
      (first.toNat + count.toNat ≤ size →
        (readPayload s table first.toNat count.toNat).length = lead + count.toNat * width ∧
        ∀ i, i < count.toNat →
          ((readPayload s table first.toNat count.toNat).drop (lead + i * width)).take width =
            recordAt s table (first.toNat + i))
    reads (.readRobot 0xFFFF first count) 1 480 152 0 ∧ reads (.readCurve 0xFFFF first count) 2 256 34 0 ∧
      reads (.readProfile 0xFFFF first count) 3 16 12 0 ∧ reads (.readZone 0xFFFF first count) 4 1024 4 0 ∧
      reads (.readLineTiming 0xFFFF first count) 5 4 18 0 ∧ reads (.readEpoch 0xFFFF first count) 6 1 13 0 ∧
      reads (.readRobotState 0xFFFF first count) 7 480 44 0 ∧ reads (.readZoneState 0xFFFF first count) 8 1024 7 0 ∧
      reads (.readDeferred 0xFFFF first count) 9 64 23 0 ∧ reads (.readWave 0xFFFF first count) 10 480 14 23) ∧
  ∀ s : State,
    let field := fun r : Option RobotNo => match r with | none => (0xFFFF : Half) | some r => halfOf r.val
    (Ready s → ∀ (r : RobotNo) (P : List Byte), exec (.report (halfOf r.val)) s = .next (s.answer (halfOf r.val) 7 .ok P) →
      recordAt s 7 r.val = P.take 44) ∧
    (∀ z : ZoneId,
      let R := recordAt s 8 z.val
      u16 R 0 = field (s.zone z).memberA ∧ u16 R 2 = field (s.zone z).memberB ∧
        match (s.zone z).holder with
        | .free => u8 R 4 = 0 ∧ u16 R 5 = 0xFFFF
        | .moving r => u8 R 4 = 1 ∧ u16 R 5 = halfOf r.val
        | .parked r => u8 R 4 = 2 ∧ u16 R 5 = halfOf r.val
        | .blocked => u8 R 4 = 3 ∧ u16 R 5 = 0xFFFF) ∧
    (∀ i,
      let R := recordAt s 9 i
      match s.deferred[i]? with
      | none => u16 R 0 = 0xFFFF ∧ ∀ j, 2 ≤ j → u8 R j = 0
      | some d => u16 R 0 = halfOf d.record.robot.val ∧ u8 R 2 = d.record.what.kind.code ∧
        u8 R 3 = byteOf d.record.profile.val ∧ u8 R 4 = byteOf d.count ∧ u8 R 5 = 10 ∧
        match d.record.what with
        | .goto g => u32 R 6 = g.angles.hub ∧ u32 R 10 = g.angles.elbow ∧ u32 R 14 = g.steps.hub ∧
          u32 R 18 = g.steps.elbow ∧ (u8 R 22).getLsbD 0 = g.hubClamped ∧ (u8 R 22).getLsbD 1 = g.elbowClamped ∧
          (u8 R 22).toNat < 4
        | .retrace => ∀ j, 6 ≤ j → u8 R j = 0
        | .home => ∀ j, 6 ≤ j → u8 R j = 0) ∧
    (∀ first count,
      let S := (readPayload s 10 first count).take 23
      match s.wave with
      | none => u16 S 0 = 0 ∧ u8 S 2 = 0 ∧ (u8 S 3 = 1 ∨ u8 S 3 = 2) ∧ u32 S 4 = 0 ∧ (u8 S 9).toNat ≤ 7 ∧ u16 S 19 = 0 ∧
        u16 S 21 = 0
      | some w => u16 S 0 = w.number ∧ u8 S 2 = w.state.code ∧ u8 S 3 = w.origin.code ∧ u32 S 4 = w.startMark ∧
        u8 S 8 = w.lead ∧ u8 S 9 = w.chainRemaining ∧ u8 S 10 = w.chainLead ∧ u16 S 11 = halfOf w.counts.admitted ∧
        u16 S 13 = halfOf w.counts.deferred ∧ u16 S 15 = halfOf w.counts.dropped ∧ u16 S 17 = halfOf w.counts.null ∧
        u16 S 19 = halfOf w.members.length ∧
        u16 S 21 = halfOf (w.members.filter fun m => decide (m.outcome = .none)).length) ∧
    ∀ i,
      let R := recordAt s 10 i
      match s.members[i]? with
      | none => u16 R 0 = 0xFFFF ∧ (u8 R 2).toNat ≤ 3 ∧ (u8 R 3).toNat ≤ 3 ∧ (u8 R 5).toNat ≤ 6 ∧
        (1 ≤ (u8 R 6).toNat ∧ (u8 R 6).toNat ≤ 5) ∧ (u8 R 7).toNat ≤ 1 ∧ (u8 R 8).toNat ≤ 12 ∧
        ∃ why : Reason, u8 R 9 = why.code
      | some m => u16 R 0 = halfOf m.robot.val ∧ u8 R 2 = m.kind.code ∧ u8 R 3 = byteOf m.line.val ∧ u8 R 4 = m.drop ∧
        u8 R 5 = m.rest.code ∧ u8 R 6 = m.delivery.code ∧ u8 R 7 = boolByte m.late ∧ u8 R 8 = m.outcome.code ∧
        u8 R 9 = m.reason.code ∧ u16 R 10 = (match m.plan.body with | .segment g => g.n | .home _ _ => 0) ∧
        u16 R 12 = m.remaining

/-- Each LOAD is answered ERROR (INDEX) for an empty run or one that leaves the table, then ERROR (LENGTH) unless its records
fill the payload exactly, and changes nothing (R165). -/
def Obligations.LoadsAreChecked : Prop :=
  ∀ (s : State) (first count : Half) (records : List Byte), Ready s → records.length + 5 ≤ 512 →
    let checked := fun (c : Instr) (size width : Nat) =>
      (count.toNat = 0 ∨ size < first.toNat + count.toNat → exec c s = .next (s.deny 0xFFFF 16 .index)) ∧
      (count.toNat ≠ 0 → first.toNat + count.toNat ≤ size → records.length ≠ count.toNat * width →
        exec c s = .next (s.deny 0xFFFF 16 .length))
    checked (.loadRobot 0xFFFF first count records) 480 152 ∧ checked (.loadCurve 0xFFFF first count records) 256 34 ∧
      checked (.loadProfile 0xFFFF first count records) 16 12 ∧ checked (.loadZone 0xFFFF first count records) 1024 4 ∧
      checked (.loadLineTiming 0xFFFF first count records) 4 18 ∧ checked (.loadEpoch 0xFFFF first count records) 1 13

/-- A LOAD of curves, profiles or line timing writes each record of the run with every value brought into its range, leaves
every other record and all other state as they were, and answers with the count, CLAMPED exactly when a value changed
(R22, R24, R137, R166). A LOAD of the epoch record with an undefined mode is answered ERROR (KIND) and changes nothing;
otherwise the period is clamped to 10 000–1 000 000 and the window to an eighth of the clamped period, mode, period and
window are written, the lock status becomes NONE, counter, timer, running period and offset are kept, and the reply returns
the record as stored (R151). -/
def Obligations.ClampingLoads : Prop :=
  (∀ (s : State) (first count : Half) (records : List Byte), Ready s → records.length + 5 ≤ 512 → count.toNat ≠ 0 →
     let inRun := fun i => first.toNat ≤ i ∧ i < first.toNat + count.toNat
     let at' := fun width i => records.drop ((i - first.toNat) * width)
     (first.toNat + count.toNat ≤ 256 → records.length = count.toNat * 34 →
       ∃ curves, (∀ (i : Fin 256) (k : Fin 17), curves[i][k] =
           if inRun i.val then clampKnot (u16 (at' 34 i.val) (2 * k.val)) else s.curves[i][k]) ∧
         exec (.loadCurve 0xFFFF first count records) s = .next (({ s with curves := curves }).answer 0xFFFF 16
           (if ∃ (i : Fin 256) (k : Fin 17), inRun i.val ∧
               clampKnot (u16 (at' 34 i.val) (2 * k.val)) ≠ u16 (at' 34 i.val) (2 * k.val) then .clamped else .ok)
           (le16 count))) ∧
     (first.toNat + count.toNat ≤ 16 → records.length = count.toNat * 12 →
       ∃ profiles, (∀ i : Fin 16, profiles[i] =
           if inRun i.val then clampProfile (rawProfile (at' 12 i.val)) else s.profiles[i]) ∧
         exec (.loadProfile 0xFFFF first count records) s = .next (({ s with profiles := profiles }).answer 0xFFFF 16
           (if ∃ i : Fin 16, inRun i.val ∧ clampProfile (rawProfile (at' 12 i.val)) ≠ rawProfile (at' 12 i.val)
             then .clamped else .ok)
           (le16 count))) ∧
     (first.toNat + count.toNat ≤ 4 → records.length = count.toNat * 18 →
       ∃ lines, (∀ i : Fin 4, lines[i] =
           if inRun i.val then { s.lines[i] with timing := clampTiming (rawTiming (at' 18 i.val)) } else s.lines[i]) ∧
         exec (.loadLineTiming 0xFFFF first count records) s = .next (({ s with lines := lines }).answer 0xFFFF 16
           (if ∃ i : Fin 4, inRun i.val ∧ clampTiming (rawTiming (at' 18 i.val)) ≠ rawTiming (at' 18 i.val)
             then .clamped else .ok)
           (le16 count)))) ∧
  ∀ (s : State) (records : List Byte), Ready s → records.length = 13 →
    let p := clampNat 10000 1000000 (u32 records 1).toNat
    let w := clampNat 0 (p / 8) (u32 records 5).toNat
    (∀ m, epochMode? (u8 records 0) = some m →
      let e := { s.epoch with mode := m, period := BitVec.ofNat 32 p, window := BitVec.ofNat 32 w, lock := .none }
      exec (.loadEpoch 0xFFFF 0 1 records) s = .next (({ s with epoch := e }).answer 0xFFFF 16
        (if p ≠ (u32 records 1).toNat ∨ w ≠ (u32 records 5).toNat then .clamped else .ok)
        (le16 1 ++ [m.code] ++ le32 e.period ++ le32 e.window ++ le32 s.epoch.running))) ∧
    (epochMode? (u8 records 0) = none → exec (.loadEpoch 0xFFFF 0 1 records) s = .next (s.deny 0xFFFF 16 .kind))

/-- A LOAD of robot records is refused LOCKED with the lowest robot of the run in a wave state, then with the first failing
test of R5 and its robot; for one record the tests are given here in their order, and a record whose present field is no is not
tested (that a drop above 127 is BADADDR is log entry 32, the model's choice). Otherwise each record of the run is written
UNCERTAIN or ABSENT with its dynamic fields cleared, its move is withdrawn, stale line work goes, and the zones naming the run
are settled: one that names a robot made UNCERTAIN is BLOCKED unless held MOVING by the other. The rest of the part is kept
(R1, R5, R6, R7, R166). -/
def Obligations.RobotLoad : Prop :=
  (∀ (s : State) (first count : Half) (records : List Byte), Ready s → records.length + 5 ≤ 512 → count.toNat ≠ 0 →
    first.toNat + count.toNat ≤ 480 → records.length = count.toNat * 152 →
    let c := Instr.loadRobot 0xFFFF first count records
    let inRun := fun r : RobotNo => first.toNat ≤ r.val ∧ r.val < first.toNat + count.toNat
    let raw := fun r : RobotNo => rawRobot (records.drop ((r.val - first.toNat) * 152))
    let fault := robotRangeFault s first.toNat count.toNat [] first.toNat
      ((recordsOf records 152 count.toNat).map rawRobot)
    (∀ r, inRun r → (s.robot r).slot.inWave = true → (∀ q, inRun q → q < r → (s.robot q).slot.inWave = false) →
      exec c s = .next (s.refuse 0xFFFF 16 .locked r.val)) ∧
    ((∀ r, inRun r → (s.robot r).slot.inWave = false) →
      (∀ why n, fault = some (why, n) → exec c s = .next (s.refuse 0xFFFF 16 why n)) ∧
      (fault = none → ∃ t : State,
        exec c s = .next (t.answer 0xFFFF 16 .ok (le16 count ++
          le16 (halfOf ((List.finRange 480).filter fun r => decide (inRun r) && (s.inOpen r || s.inDeferred r)).length))) ∧
        (∀ r, ¬inRun r → t.robot r = s.robot r) ∧
        (∀ r, inRun r → t.robot r =
          { static := (raw r).static, slot := if (raw r).present then .uncertain else .absent,
            believed := Position.zero, reported := Pair.zero, reportedValid := false, fault := 0, stack := [],
            rest := .uncertain,
            lastOutcome := if s.inOpen r || s.inDeferred r then .withdrawn else (s.robot r).lastOutcome,
            lastReason := if s.inOpen r || s.inDeferred r then .none else (s.robot r).lastReason }) ∧
        t.openWave = s.openWave.filter (fun m => ¬inRun m.robot) ∧
        t.deferred = s.deferred.filter (fun d => ¬inRun d.record.robot) ∧
        (∀ l, t.line l = (s.line l).dropStale fun r => decide (inRun r)) ∧
        (∀ z, (t.zone z).memberA = (s.zone z).memberA ∧ (t.zone z).memberB = (s.zone z).memberB ∧
          ((∀ r, inRun r → (s.zone z).names r = false) → t.zone z = s.zone z) ∧
          ((∃ r, inRun r ∧ (s.zone z).names r = true ∧ (raw r).present = true) →
            (t.zone z).holder = .blocked ∨
              ∃ q, (t.zone z).holder = .moving q ∧ (t.robot q).slot.inWave = true)) ∧
        t.wave = s.wave ∧ t.waveCounter = s.waveCounter ∧ t.curves = s.curves ∧ t.profiles = s.profiles ∧
        t.epoch = s.epoch ∧ t.timer = s.timer ∧ t.events.masks = s.events.masks))) ∧
  ∀ (s : State) (r : RobotNo) (record : List Byte), Ready s → record.length = 152 → (s.robot r).slot.inWave = false →
    let x := rawRobot record
    let answers := fun why => exec (.loadRobot 0xFFFF (halfOf r.val) 1 record) s = .next (s.refuse 0xFFFF 16 why r.val)
    let within := fun (lo hi : Int) (w : Word) => lo ≤ w.toInt ∧ w.toInt ≤ hi
    let hub := within (-190000) 190000
    let elbow := within 0 190000
    let badAddr := 3 < x.line.toNat ∨ x.drop = 0 ∨ 120 < x.drop.toNat
    let duplicate := ∃ q, q ≠ r ∧ (s.robot q).static.present = true ∧ (s.robot q).static.line.val = x.line.toNat ∧
      (s.robot q).static.drop = x.drop
    let badLimit := ¬hub x.hubMin ∨ ¬hub x.hubMax ∨ ¬elbow x.elbowMin ∨ ¬elbow x.elbowMax ∨
      x.hubMax.toInt < x.hubMin.toInt ∨ x.elbowMax.toInt < x.elbowMin.toInt ∨ 2 < x.fenceMode.toNat ∨
      ¬hub x.fs ∨ ¬hub x.fe
    let badGear := 16777215 < x.gearHub.toNat ∨ 16777215 < x.gearElbow.toNat ∨ ¬within (-65536) 65536 x.coupling
    let badLink := 6 < x.linkCount.toNat ∨
      (∃ k ∈ x.links, ¬hub k.ws ∨ ¬hub k.we ∨ ¬elbow k.thr ∨
        ∀ z : ZoneId, z.val = k.zone.toNat → (s.zone z).memberA ≠ some r ∧ (s.zone z).memberB ≠ some r) ∨
      ¬(x.links.map RawLink.zone).Nodup
    let badHome := ¬within x.hubMin.toInt x.hubMax.toInt x.homeAngles.hub ∨
      ¬within x.elbowMin.toInt x.elbowMax.toInt x.homeAngles.elbow ∨
      forbidden x.static x.homeAngles.hub.toInt = true ∨ ∃ k ∈ x.links, k.thr.toInt ≤ x.homeAngles.elbow.toInt
    let passes := ∃ (t : State) (P : List Byte),
      exec (.loadRobot 0xFFFF (halfOf r.val) 1 record) s = .next (t.answer 0xFFFF 16 .ok P) ∧ (t.robot r).static = x.static
    (x.present = false → passes) ∧
    (x.present = true →
      (badAddr → answers .badAddr) ∧
      (¬badAddr →
        (duplicate → answers .duplicate) ∧
        (¬duplicate →
          (badLimit → answers .badLimit) ∧
          (¬badLimit →
            (badGear → answers .badGear) ∧
            (¬badGear →
              (badLink → answers .badLink) ∧
              (¬badLink → (badHome → answers .badHome) ∧ (¬badHome → passes)))))))

/-- A LOAD of zone entries is refused LOCKED with the lowest zone of the run that is held MOVING, then BADLINK with the first
zone whose members are undefined, equal, or leave out a present robot that links to the zone; otherwise the members of the run
are written, each of its entries is settled from their presence, and every other zone and all else but events is kept (R51,
R58, R59, R166). A robot in a wave state that an entry newly names and that does not link to it is OUT there (R59). That a robot
homing from UNCERTAIN stays OUT in such an entry, which keeps in mind that it named it newly, and is UNKNOWN in any entry that named
it before, is log entry 35, the model's choice between R50's table, R54 and R59. -/
def Obligations.ZoneLoad : Prop :=
  ∀ (s : State) (first count : Half) (records : List Byte), Ready s → records.length + 5 ≤ 512 → count.toNat ≠ 0 →
    first.toNat + count.toNat ≤ 1024 → records.length = count.toNat * 4 →
    let c := Instr.loadZone 0xFFFF first count records
    let inRun := fun z : ZoneId => first.toNat ≤ z.val ∧ z.val < first.toNat + count.toNat
    let record := fun z : ZoneId => (records.drop ((z.val - first.toNat) * 4)).take 4
    let held := fun z : ZoneId => ∃ r, (s.zone z).holder = .moving r
    let good := fun (z : ZoneId) (m : Option RobotNo × Option RobotNo) =>
      memberField (u16 (record z) 0) = some m.1 ∧ memberField (u16 (record z) 2) = some m.2 ∧
        (m.1.isSome = true → m.1 ≠ m.2) ∧
        ∀ r, (s.robot r).static.present = true → (∃ k ∈ (s.robot r).static.links, k.zone = z) →
          m.1 = some r ∨ m.2 = some r
    (∀ z, inRun z → held z → (∀ y, inRun y → y < z → ¬held y) →
      exec c s = .next (s.refuse 0xFFFF 16 .locked z.val)) ∧
    ((∀ z, inRun z → ¬held z) →
      (∀ z, inRun z → (∀ m, ¬good z m) → (∀ y, inRun y → y < z → ∃ m, good y m) →
        exec c s = .next (s.refuse 0xFFFF 16 .badLink z.val)) ∧
      ∀ m : ZoneId → Option RobotNo × Option RobotNo, (∀ z, inRun z → good z (m z)) →
        ∃ (zones : Vector Zone 1024) (events : Events),
          exec c s = .next (({ s with zones := zones, events := events }).answer 0xFFFF 16 .ok (le16 count)) ∧
          events.masks = s.events.masks ∧ (∀ z : ZoneId, ¬inRun z → zones[z] = s.zone z) ∧
          ∀ z : ZoneId, inRun z → zones[z].memberA = (m z).1 ∧ zones[z].memberB = (m z).2 ∧
            let at' := fun r : Option RobotNo => s.presence s.undecidedMembers zones[z] r z.val
            zones[z].holder = holderFrom zones[z] (at' (m z).1) (at' (m z).2) ∧
            (∀ r, zones[z].joinedBy r = (zones[z].names r &&
              if (s.zone z).names r then (s.zone z).joinedBy r else (s.robot r).slot.inWave)) ∧
            ∀ r, zones[z].names r = true → (s.zone z).names r = false → (s.robot r).slot.inWave = true →
              (s.member? r).isSome = true → (∀ k ∈ (s.robot r).static.links, k.zone ≠ z) → at' (some r) = .out)

/-- A READ of one record of a kind 1 to 6 is answered OK with that record, from which a LOAD forms the record held: a robot record
that passed its load, a curve, a profile, a zone entry's members, a line timing record or the epoch record. An absent robot record
reads 152 zeros (R1, R20, R22, R24, R59, R60, R137, R152, 10.4). -/
def Obligations.RecordsRoundTrip : Prop :=
  ∀ s : State,
    let reads := fun (c : Instr) (table : Byte) (i : Nat) =>
      Ready s → exec c s = .next (s.answer 0xFFFF 17 .ok (recordAt s table i))
    (∀ r : RobotNo, reads (.readRobot 0xFFFF (halfOf r.val) 1) 1 r.val ∧
      ((s.robot r).static.present = true → StaticOk (s.robot r).static →
        (rawRobot (recordAt s 1 r.val)).static = (s.robot r).static) ∧
      ((s.robot r).static = RobotStatic.absent → recordAt s 1 r.val = List.replicate 152 0)) ∧
    (∀ c : Fin 256, reads (.readCurve 0xFFFF (halfOf c.val) 1) 2 c.val ∧ rawCurve (recordAt s 2 c.val) = s.curves[c]) ∧
    (∀ p : ProfileNo, reads (.readProfile 0xFFFF (halfOf p.val) 1) 3 p.val ∧
      rawProfile (recordAt s 3 p.val) = s.profile p) ∧
    (∀ z : ZoneId, reads (.readZone 0xFFFF (halfOf z.val) 1) 4 z.val ∧
      memberField (u16 (recordAt s 4 z.val) 0) = some (s.zone z).memberA ∧
      memberField (u16 (recordAt s 4 z.val) 2) = some (s.zone z).memberB) ∧
    (∀ l : LineNo, reads (.readLineTiming 0xFFFF (halfOf l.val) 1) 5 l.val ∧
      rawTiming (recordAt s 5 l.val) = (s.line l).timing) ∧
    reads (.readEpoch 0xFFFF 0 1) 6 0 ∧
    let E := recordAt s 6 0
    epochMode? (u8 E 0) = some s.epoch.mode ∧ u32 E 1 = s.epoch.period ∧ u32 E 5 = s.epoch.window ∧
      u32 E 9 = s.epoch.running

/-- FLAGS with SET, CLEAR or TOGGLE is answered ERROR (INDEX) for a range beyond 479 or reversed; otherwise each selected flag
of each present record of the range is set, cleared or inverted, nothing else changes, and the reply counts the records in
which a flag changed value (R11). -/
def Obligations.FlagsOutcome : Prop :=
  ∀ (s : State) (first last : Half) (mask : Byte), Ready s →
    let flags := fun (c : Instr) (f : Bool → Bool) =>
      (479 < first.toNat ∨ 479 < last.toNat ∨ last.toNat < first.toNat →
        exec c s = .next (s.deny 0xFFFF 18 .index)) ∧
      (first.toNat ≤ last.toNat → last.toNat ≤ 479 → ∃ robots : Vector Robot 480,
        (∀ r : RobotNo, robots[r] =
          if first.toNat ≤ r.val ∧ r.val ≤ last.toNat ∧ (s.robot r).static.present = true then
            { s.robot r with static := { (s.robot r).static with
                enable := if mask.getLsbD 0 then f (s.robot r).static.enable else (s.robot r).static.enable
                priority := if mask.getLsbD 1 then f (s.robot r).static.priority else (s.robot r).static.priority } }
          else s.robot r) ∧
        exec c s = .next (({ s with robots := robots }).answer 0xFFFF 18 .ok
          (le16 (halfOf ((List.finRange 480).filter fun r => robots[r] ≠ s.robot r).length))))
    flags (.flagsSet 0xFFFF first last mask) (fun _ => true) ∧ flags (.flagsClear 0xFFFF first last mask) (fun _ => false) ∧
      flags (.flagsToggle 0xFFFF first last mask) (fun b => !b)

/-! ### Waves -/

/-- A COMMIT is answered ERROR (INDEX) for a lead of 0, a chain count above 7 or a chain lead of 0, then refused ACTIVE while a
wave is active, then EMPTY with no record. Otherwise both lists are emptied, the four counts add up to the records taken, the
deferred ones stand in the deferred list and the members in the wave, both in the order of R69, the counts of the deferred raised
by one and DEFER_DROP raised once for each one dropped instead, the needed zones of every member held MOVING by its robot, and a
wave is created exactly when a member was admitted: with the next number, ARMING, its start mark the counter plus the lead, and
every member LISTED and undecided (R57, R66, R68, R69, R71, R72, R73, R74). -/
def Obligations.CommitOutcome : Prop :=
  ∀ (s : State) (lead chainCount chainLead : Byte), Ready s →
    let c := Instr.commit 0xFFFF lead chainCount chainLead
    let badFields := lead = 0 ∨ 7 < chainCount.toNat ∨ chainLead = 0
    let idle := ∀ w, s.wave = some w → w.state = .done
    (badFields → exec c s = .next (s.deny 0xFFFF 19 .index)) ∧
    (¬badFields → ¬idle → exec c s = .next (s.refuse 0xFFFF 19 .active 0)) ∧
    (¬badFields → idle → s.openWave = [] → s.deferred = [] → exec c s = .next (s.refuse 0xFFFF 19 .empty 0)) ∧
    (¬badFields → idle → ¬(s.openWave = [] ∧ s.deferred = []) → ∃ (t : State) (k : CommitCounts) (n : Half) (mark : Word),
      exec c s = .next (t.answer 0xFFFF 19 .ok (le16 (halfOf k.admitted) ++ le16 (halfOf k.deferred) ++
        le16 (halfOf k.dropped) ++ le16 (halfOf k.null) ++ le16 n ++ le32 mark)) ∧
      k.admitted + k.deferred + k.dropped + k.null = s.openWave.length + s.deferred.length ∧
      t.openWave = [] ∧ t.deferred.length = k.deferred ∧ k.deferred ≤ 64 ∧ (∀ d ∈ t.deferred, d.count ≤ 7) ∧
      (t.deferred.map fun d => (d.record, d.count)).Sublist ((commitOrder s).map fun c => (c.1, c.2 + 1)) ∧
      (∀ r, s.inOpen r = false → s.inDeferred r = false → t.robot r = s.robot r) ∧
      (k.admitted = 0 → t.wave = s.wave ∧ t.waveCounter = s.waveCounter ∧ n = 0 ∧ mark = 0) ∧
      (k.admitted ≠ 0 → n = (if s.waveCounter = 0xFFFF then 1 else s.waveCounter + 1) ∧
        mark = s.epoch.counter + lead.setWidth 32 ∧ t.waveCounter = n ∧
        ∃ members : List Member, members.length = k.admitted ∧
          (members.map Member.robot).Sublist ((commitOrder s).map fun c => c.1.robot) ∧
          (∀ m ∈ members, m.delivery = .listed ∧ m.outcome = .none ∧ m.late = false ∧
            (t.robot m.robot).slot = .arming ∧
            ∀ z ∈ neededZones (s.robot m.robot).static.links m.kind m.plan, (t.zone z).holder = .moving m.robot) ∧
          t.wave = some { number := n, state := .arming, origin := .request, startMark := mark, lead := lead,
                          chainRemaining := chainCount, chainLead := chainLead, counts := k, members := members }) ∧
      (((commitOrder s).map fun c => c.1.robot).Nodup →
        let deferDrops := (commitOrder s).filter fun c =>
          decide (∀ m ∈ t.arming, m.robot ≠ c.1.robot) && decide ((t.robot c.1.robot).lastOutcome = .dropped) &&
            (decide ((t.robot c.1.robot).lastReason = .expired) || decide ((t.robot c.1.robot).lastReason = .overflow))
        (t.events.get .deferDrop).count.toNat =
          min 255 ((s.events.get .deferDrop).count.toNat + deferDrops.length)))

/-- The tests of a commit on a candidate in its place of the order of R69, one candidate a robot: DROPPED with ABSENT, DISABLED,
LINE_DOWN, UNCERTAIN, EMPTY, FENCED or LONG in that order, or NULL for a zero move. A needed zone that is neither FREE nor PARKED by
the robot, or that a member admitted before it needs, is a conflict: DROPPED with EXPIRED at an eighth deferral, DROPPED with
OVERFLOW when the candidates before it fill the list, otherwise DEFERRED with its count raised by one. With no conflict it is
admitted: its needed zones held MOVING, its robot ARMING, its DELIVER listed; a HOME admitted from UNCERTAIN leaves every zone
naming its robot BLOCKED, or held by another member's move (R54, R56, R57, R66, R69, R70, R71, R72). That the zones are settled at
that admission is log entry 20, and that a robot then homing is UNKNOWN in each is log entry 35. -/
def Obligations.CandidateIsTested : Prop :=
  ∀ (s : State) (lead chainCount chainLead : Byte) (before after : List (MoveRecord × Nat)) (m : MoveRecord) (count : Nat),
    Ready s → lead ≠ 0 → chainCount.toNat ≤ 7 → chainLead ≠ 0 → (∀ w, s.wave = some w → w.state = .done) →
    commitOrder s = before ++ (m, count) :: after → ((commitOrder s).map fun c => c.1.robot).Nodup →
    let r := m.robot
    let b := s.robot r
    let e := s.line b.static.line
    let alone := before = [] ∧ after = []
    ∃ (t : State) (P : List Byte), exec (.commit 0xFFFF lead chainCount chainLead) s = .next (t.answer 0xFFFF 19 .ok P) ∧
      let ends := fun x : Robot => t.robot r = x ∧ (∀ q ∈ t.arming, q.robot ≠ r) ∧
        (alone → t.wave = s.wave ∧ t.zones = s.zones ∧ t.lines = s.lines)
      let dropped := fun why : Reason =>
        ends { b with lastOutcome := .dropped, lastReason := why } ∧ ∀ d ∈ t.deferred, d.record.robot ≠ r
      (b.slot = .absent → dropped .absent) ∧
      (b.slot ≠ .absent → b.static.enable = false → dropped .disabled) ∧
      (b.slot ≠ .absent → b.static.enable = true → e.state = .down → dropped .lineDown) ∧
      (b.slot ≠ .absent → b.static.enable = true → e.state ≠ .down →
        (m.what.kind ≠ .home → b.slot = .uncertain → dropped .uncertain) ∧
        (m.what.kind = .retrace → b.slot ≠ .uncertain → b.stack = [] → dropped .empty) ∧
        ((m.what.kind ≠ .home → b.slot ≠ .uncertain) → (m.what.kind = .retrace → b.stack ≠ []) →
          match planCandidate s m with
          | .fenced => dropped .fenced
          | .long => dropped .long
          | .null =>
            ends { b with
              lastOutcome := .null, lastReason := .none,
              stack := if m.what.kind = .retrace then b.stack.tail else b.stack } ∧
              ∀ d ∈ t.deferred, d.record.robot ≠ r
          | .plan p =>
            let needed := neededZones b.static.links m.what.kind p
            let before' := fun z : ZoneId => before.filter fun c =>
              decide ((s.robot c.1.robot).slot = .uncertain) && (s.zone z).names c.1.robot
            let held := ∃ z ∈ needed, (s.zone z).holder ≠ .free ∧ (s.zone z).holder ≠ .parked r
            let free := ∀ z ∈ needed, ((s.zone z).holder = .free ∨ (s.zone z).holder = .parked r) ∧ before' z = []
            let taken := ∃ q ∈ t.arming, (∃ c ∈ before, c.1.robot = q.robot) ∧
              ∃ z ∈ needed, z ∈ neededZones (s.robot q.robot).static.links q.kind q.plan
            let full := (t.deferred.filter fun d => decide (∃ c ∈ before, c.1.robot = d.record.robot)).length = 64
            (held ∨ taken →
              (8 ≤ count + 1 → dropped .expired) ∧
              (count + 1 < 8 → full → dropped .overflow) ∧
              (count + 1 < 8 → ¬full →
                ends { b with lastOutcome := .deferred, lastReason := .zone } ∧ ⟨m, count + 1⟩ ∈ t.deferred)) ∧
            (free → ¬taken →
              t.robot r = { b with slot := .arming, rest := if b.slot = .uncertain then .uncertain else .idle } ∧
                (∀ z ∈ needed, (t.zone z).holder = .moving r) ∧ (∀ d ∈ t.deferred, d.record.robot ≠ r) ∧
                (b.slot = .uncertain → ∀ z, (s.zone z).names r = true → (t.zone z).holder = .blocked ∨
                  ∃ q, (t.zone z).holder = .moving q ∧ (t.robot q).slot.inWave = true) ∧
                (∃ x ∈ (t.line b.static.line).normal, x.robot = r ∧ x.deliver = true) ∧
                (alone → (t.line b.static.line).normal = offerDeliverTo e.normal r) ∧
                ∃ q ∈ t.arming, (alone → t.arming = [q]) ∧ q.robot = r ∧ q.line = b.static.line ∧
                  q.drop = b.static.drop ∧ q.kind = m.what.kind ∧ q.plan = p ∧ q.delivery = .listed)))

/-- An ABORT is refused NOWAVE with no active wave, and answered with counts 0 for one already ABORTING. Otherwise the wave is
ABORTING, or DONE with WAVE_DONE raised when no member stays undecided; every pending GO goes; members LISTED are MISSED and
CLOSED; members whose robot is ARMED or MOVING or whose DELIVER is in flight are STOPPING and wait for a READ; every other member,
such as one already STOPPING, is left as it was; exactly the lines that carry a member still undecided get the HALT broadcast; and
the reply counts both (R83, R84, R87, R88, R121, R123). The premise that a robot has one member is kept by every step. -/
def Obligations.AbortOutcome : Prop :=
  ∀ s : State, Ready s →
    ((∀ w, s.wave = some w → w.state = .done) → exec (.abort 0xFFFF) s = .next (s.refuse 0xFFFF 20 .noWave 0)) ∧
    ∀ w, s.wave = some w →
      (w.state = .aborting →
        exec (.abort 0xFFFF) s = .next (s.answer 0xFFFF 20 .ok (le16 w.number ++ le16 0 ++ le16 0))) ∧
      (w.state ≠ .aborting → w.state ≠ .done → (w.members.map Member.robot).Nodup →
        let listed := fun m : Member => decide (m.outcome = .none) && decide (m.delivery = .listed)
        let stays := fun m : Member => decide (m.outcome = .none) && decide (m.delivery ≠ .listed)
        let stops := fun m : Member => stays m &&
          (decide ((s.robot m.robot).slot = .armed) || decide ((s.robot m.robot).slot = .moving) ||
            (decide (m.delivery = .inFlight) && decide ((s.robot m.robot).slot ≠ .stopping)))
        ∃ (t : State) (v : Wave), exec (.abort 0xFFFF) s = .next (t.answer 0xFFFF 20 .ok (le16 w.number ++
            le16 (halfOf (w.members.filter listed).length) ++ le16 (halfOf (w.members.filter stops).length))) ∧
          t.wave = some v ∧ v.chainRemaining = 0 ∧ v.number = w.number ∧
          v.state = (if ∃ m ∈ w.members, stays m = true then .aborting else .done) ∧
          t.events.get .waveDone = (if ∃ m ∈ w.members, stays m = true then s.events.get .waveDone
            else (s.events.get .waveDone).raised w.number) ∧
          (∀ l, (t.line l).goPending = none ∧ ((t.line l).haltPending = true ↔
            (s.line l).haltPending = true ∨
              (s.line l).state ≠ .down ∧ ∃ m ∈ w.members, stays m = true ∧ m.line = l)) ∧
          (∀ m ∈ w.members, listed m = true →
            (t.robot m.robot).slot = (s.robot m.robot).rest.slot ∧
            (t.robot m.robot).lastOutcome = .missed ∧ (t.robot m.robot).lastReason = .none ∧
            { m.decided .missed .none with delivery := .closed } ∈ v.members) ∧
          (∀ m ∈ w.members, stops m = true →
            (t.robot m.robot).slot = .stopping ∧ { m with deadline := none, stop := .read 1 } ∈ v.members ∧
            (∀ p ∈ (t.line (s.robot m.robot).static.line).cycle, p.robot ≠ m.robot) ∧
            ((s.line (s.robot m.robot).static.line).state ≠ .down →
              ∃ x ∈ (t.line (s.robot m.robot).static.line).normal, x.robot = m.robot ∧ x.readBack = true)) ∧
          ∀ m ∈ w.members, listed m = false → stops m = false → m ∈ v.members ∧ t.robot m.robot = s.robot m.robot)

/-- A LINE_RESET that names no line changes nothing. A named line is IDLE with no transaction and silence count 0, and every line
keeps its flags, timing record, counters and the cycle places of robots still MOVING; what the abandoned transaction leaves on a
named line is log entry 15, read from R136, and an unnamed line's engine is untouched. With one line named, its count is that of
its listed entries, and its one piece of work, in flight or listed, fails with cause LINE_RESET: a DELIVER gives a CLEAR, a poll,
CLEAR, read-back READ or overrun HALT single decides its member as its rule says for a LINE_RESET, and the wave goes on from there; a
read-back HALT single gives its READ, and a REFRESH's READ passes without effect; listed DELIVERs give their CLEARs in their order
(R77, R78, R83, R101, R104, R105, R108, R112, R121, R135). That the engine is IDLE at once while a broadcast goes out is log entry
36, the model's choice; that a member decided with no GO time is CLOSED is log entry 28, read from R74. -/
def Obligations.LineResetOutcome : Prop :=
  ∀ (s : State) (mask : Byte), Ready s →
    ((∀ l : LineNo, mask.getLsbD l.val = false) →
      exec (.lineReset 0xFFFF mask) s = .next (s.answer 0xFFFF 24 .ok (List.replicate 8 0))) ∧
    (∃ (t : State) (P : List Byte), exec (.lineReset 0xFFFF mask) s = .next (t.answer 0xFFFF 24 .ok P) ∧
      ∀ l : LineNo,
        ((t.line l).timing = (s.line l).timing ∧ (t.line l).counters = (s.line l).counters ∧
          (t.line l).lastChar = (s.line l).lastChar ∧ (t.line l).haltPending = (s.line l).haltPending ∧
          (t.line l).goPending = (s.line l).goPending ∧ (t.line l).cycle.Sublist (s.line l).cycle ∧
          ∀ p ∈ (s.line l).cycle, (t.robot p.robot).slot = .moving → p ∈ (t.line l).cycle) ∧
        (mask.getLsbD l.val = true →
          (t.line l).state = .idle ∧ (t.line l).txn = none ∧ (t.line l).silence = 0 ∧
          (∀ ρ, (s.line l).residue = some ρ → (t.line l).residue = some ρ) ∧
          ((s.line l).residue = none → (t.line l).residue = match (s.line l).txn with
            | none => none
            | some x => match x.phase with
              | .gap _ _ => none
              | .sending f => some ⟨x, f.isBroadcast⟩
              | .waiting _ _ => some ⟨x, false⟩
              | .receiving _ _ => some ⟨x, false⟩)) ∧
        (mask.getLsbD l.val = false →
          (t.line l).state = (s.line l).state ∧ (t.line l).txn = (s.line l).txn ∧
            (t.line l).residue = (s.line l).residue ∧ (t.line l).silence = (s.line l).silence)) ∧
    ∀ l : LineNo, (∀ k : LineNo, mask.getLsbD k.val = decide (k = l)) →
      ∃ t : State, exec (.lineReset 0xFFFF mask) s = .next (t.answer 0xFFFF 24 .ok
          (([0, 1, 2, 3] : List LineNo).flatMap fun k =>
            le16 (halfOf (if k = l then (s.line l).urgent.length + (s.line l).normal.length else 0)))) ∧
        let fails := OnlyWork (s.line l)
        ((s.line l).txn = none → (s.line l).urgent = [] → (s.line l).normal = [] →
          t = s.modLine l fun e => { e with state := .idle, silence := 0 }) ∧
        (∀ r m, (s.robot r).static.line = l → s.member? r = some m →
          let ends := fun (m : Member) (o : Ending) (why : Reason) (c : EventClass) => ∃ u, EndsUncertain s u r m o why ∧
            u.events.get c = (s.events.get c).raised (halfOf r.val) ∧ (fails (.clear r) → u.armingTested) ∧ Completes u t
          (fails (.deliver r) → m.delivery = .listed ∨ m.delivery = .inFlight →
            (t.robot r).slot = .stopping ∧ (t.line l).urgent = [⟨r, .clear⟩] ∧ (t.line l).normal = [] ∧
              t.member? r = some { m with delivery := .clearing, clearLineReset := true, stop := .none }) ∧
          (∀ round, fails (.haltSingle r) → m.stop = .halt round →
            (t.line l).urgent = [] ∧ (t.line l).normal = [⟨r, false, false, true⟩] ∧
              t.member? r = some { m with stop := .read round } ∧ t.robots = s.robots) ∧
          (fails (.poll r) → (s.robot r).slot = .moving → ends m .lost .lineReset .lost) ∧
          (fails (.clear r) → m.delivery = .clearing → ends { m with delivery := .closed } .lost .none .lost) ∧
          (fails (.clear r) → m.delivery ≠ .clearing → m.stop = .clear → ends m .lost .lineReset .lost) ∧
          (fails (.haltSingle r) → m.stop = .overrunHalt → ends m .overrun .lineReset .overrun) ∧
          ∀ a round, fails (.read r a true) → m.stop = .read round → ends m .lost .lineReset .lost) ∧
        (∀ r, fails (.read r true false) → WaveOpen s → t.robots = s.robots ∧ t.wave = s.wave ∧ t.events = s.events) ∧
        ∀ rs : List RobotNo, (s.line l).txn = none → (s.line l).urgent = [] →
          (s.line l).normal = rs.map (fun r => ⟨r, true, false, false⟩) → rs.Nodup →
          (∀ r ∈ rs, (s.robot r).static.line = l ∧ ∃ m, s.member? r = some m ∧ m.delivery = .listed) →
          (t.line l).urgent = rs.map fun r => ⟨r, .clear⟩

/-! ### Events and attention -/

/-- TAKE returns the pending class of highest priority whose group is unmasked, with its count and details as they stood, and
empties it; with no such class it returns zeros and changes nothing. The reply's attention value is the one left (R179). -/
def Obligations.TakeOutcome : Prop :=
  ∀ s : State, Ready s →
    let shown := fun c : EventClass => (s.events.get c).count ≠ 0 ∧ s.events.masks.masked c.group = false
    (∀ c, shown c → (∀ d, shown d → c.idx ≤ d.idx) →
      ∃ events : Events, events.get c = ⟨0, 0, 0⟩ ∧ (∀ d, d ≠ c → events.get d = s.events.get d) ∧
        events.masks = s.events.masks ∧
        exec (.take 0xFFFF) s = .next (({ s with events := events }).answer 0xFFFF 21 .ok
          ([byteOf (c.idx.val + 1), (s.events.get c).count] ++ le16 (s.events.get c).first ++
            le16 (s.events.get c).last))) ∧
    ((∀ c, ¬shown c) →
      exec (.take 0xFFFF) s = .next (s.answer 0xFFFF 21 .ok [0, 0, 0, 0, 0, 0]) ∧ s.events.attention = 0)

/-- MASK writes the four group masks as one change, any value but 0 masking its group; it changes no count and no detail, is
answered OK with the masks as now held, and its attention value is computed with them. A raise before it leaves the same
records and masks as the raise after it (R177). -/
def Obligations.MaskOutcome : Prop :=
  ∀ (s : State) (fault timing flow link : Byte), Ready s →
    let one := fun b : Byte => if b = 0 then (0 : Byte) else 1
    ∃ events : Events, events.recs = s.events.recs ∧
      events.masks = ⟨fault ≠ 0, timing ≠ 0, flow ≠ 0, link ≠ 0⟩ ∧
      exec (.mask 0xFFFF fault timing flow link) s =
        .next (({ s with events := events }).answer 0xFFFF 22 .ok [one fault, one timing, one flow, one link]) ∧
      ∀ c d, ∃ u : State, exec (.mask 0xFFFF fault timing flow link) (s.raise c d) = .next u ∧
        u.events = (({ s with events := events } : State).raise c d).events

/-- Raising a class with a detail: count 0 becomes 1 with both details set; 1 to 254 rises by one and 255 stays, with the last
detail set and the first kept; no other class and no mask changes, whatever the masks. Raises of one class apply in turn, and
raises of different classes in either order give the same state (R174). -/
def Obligations.RaiseChangesOneRecord : Prop :=
  ∀ (s : State) (c : EventClass) (d : Half),
    ((s.raise c d).events.get c =
      if (s.events.get c).count = 0 then ⟨1, d, d⟩
      else if (s.events.get c).count = 255 then ⟨255, (s.events.get c).first, d⟩
      else ⟨(s.events.get c).count + 1, (s.events.get c).first, d⟩) ∧
    (∀ c', c' ≠ c → (s.raise c d).events.get c' = s.events.get c') ∧
    (∃ events : Events, events.masks = s.events.masks ∧ s.raise c d = { s with events := events }) ∧
    (∀ (ds : List Nat), ((State.raiseEach s c (ds ++ [d.toNat])).events.get c).last = d ∧
      ((State.raiseEach s c ds).events.get c).count.toNat = min 255 ((s.events.get c).count.toNat + ds.length)) ∧
    ∀ c' d', c' ≠ c → (s.raise c d).raise c' d' = (s.raise c' d').raise c d

/-- The attention value is the code of the pending class of highest priority whose group is unmasked, or 0 with none; a raise
of a class already pending, or in a masked group, leaves it; every reply carries it as the request leaves it, STATUS reports
it with the counts and the masks, and ATTN is asserted exactly while it is not 0 (R162, R175, R176). -/
def Obligations.AttentionValue : Prop :=
  ∀ s : State,
    let shown := fun c : EventClass => (s.events.get c).count ≠ 0 ∧ s.events.masks.masked c.group = false
    (∀ c, shown c → (∀ d, shown d → c.idx ≤ d.idx) → s.events.attention = byteOf (c.idx.val + 1)) ∧
    ((∀ c, ¬shown c) → s.events.attention = 0) ∧
    (∀ c d, (s.events.get c).count ≠ 0 ∨ s.events.masks.masked c.group = true →
      (s.raise c d).events.attention = s.events.attention) ∧
    (∀ f, ∃ r, (take s f).trunk.disp = .replying r ∧ r.attention = (take s f).events.attention) ∧
    (statusBytes s).getLast? = some s.events.attention ∧
    (∀ c : EventClass, u8 (statusBytes s) (80 + c.idx.val) = (s.events.get c).count) ∧
    u8 (statusBytes s) 91 = maskByte s.events.masks ∧
    (s.resetLow = false → (attnOutput s = true ↔ s.events.attention ≠ 0))

/-! ### The epoch timebase -/

/-- The expiry of the timer takes a mark: the counter rises by one, the timer restarts at the expiry with the period held, and
a wave whose start mark is not the new value is left as it is (R80, R142, R143, R144). That the mark is taken at t_next whatever the
timer reads, and the timer is moved on to it, is log entry 5, and that the timer's 64 bits do not wrap is log entry 4, both the
model's choice. -/
def Obligations.ExpiryTakesAMark : Prop :=
  ∀ s : State, s.resetLow = false →
    (∀ w, s.wave = some w → w.state = .arming ∨ w.state = .armed → w.startMark ≠ s.epoch.counter + 1) →
    exec .epochMark s = .next { s.clock (BitVec.ofNat 64 (s.epoch.tLast + s.epoch.running.toNat)) with
      epoch := { s.epoch with
        tLast := s.epoch.tLast + s.epoch.running.toNat
        running := s.epoch.period
        counter := s.epoch.counter + 1 } }

/-- At its start mark a wave becomes RUNNING: LISTED members are MISSED and lose their DELIVER, members in flight are late, the
others are kept, GO is pending with the excluded drop on exactly the lines with an ARMED member, and WAVE_LATE is raised once
if any was missed or late. With no member left undecided the wave is DONE at the mark (R80, R81, R82, R83, R84, R121). That the
timer is moved on to the mark is log entry 5, the model's choice; PulseIsTaken says the same of a mark that an EPOCH pulse takes. -/
def Obligations.WaveStartsAtItsMark : Prop :=
  ∀ (s : State) (w : Wave), s.resetLow = false → s.wave = some w → w.state = .arming ∨ w.state = .armed →
    w.startMark = s.epoch.counter + 1 → (w.members.map Member.robot).Nodup →
    let next := s.epoch.tLast + s.epoch.running.toNat
    EndsIn .epochMark s fun u => WaveStarts ((s.clock (BitVec.ofNat 64 next)).marked next) u w

/-- An EPOCH pulse, by the mode held: FREE only measures it against the nearest mark; TRACK takes a mark in the early window or
the later half and re-phases in the late window or the earlier half, SLIPPED outside both windows; ONCE aligns as TRACK does
out of window and becomes FREE. The offset is stored clamped to half the running period, and SLIPPED raises EPOCH_SLIP with
the active wave's number (R145 to R150). A mark so taken starts a wave that has it as its start mark, as the timer's own mark does,
and leaves any other wave; FREE and a re-phase start none (R80, R144). -/
def Obligations.PulseIsTaken : Prop :=
  ∀ (s : State) (t : Time), s.resetLow = false → s.timer.toNat ≤ t.toNat →
    let e := s.epoch
    let T : Int := t.toNat
    let last : Int := e.tLast
    let Pr : Int := e.running.toNat
    let next := last + Pr
    let Wr : Int := min e.window.toNat (e.running.toNat / 8)
    let activeWave : Half := match s.wave with | none => 0 | some w => if w.state = .done then 0 else w.number
    let measured := fun (d : Int) (lock : LockStatus) (mode : EpochMode) =>
      { s with
        timer := t
        epoch := { e with mode := mode, lock := lock, offset := BitVec.ofInt 32 (clampInt (-(Pr / 2)) (Pr / 2) d) }
        events := if lock = .slipped then s.events.put .epochSlip ((s.events.get .epochSlip).raised activeWave) else s.events }
    let measures := fun (d : Int) (lock : LockStatus) => exec (.epochPulse t) s = .next (measured d lock .free)
    let rePhases := fun (d : Int) (lock : LockStatus) (mode : EpochMode) => exec (.epochPulse t) s = .next { measured d lock mode with
      epoch := { (measured d lock mode).epoch with tLast := t.toNat, running := e.period } }
    let marks := fun (d : Int) (lock : LockStatus) (mode : EpochMode) =>
      let u := (measured d lock mode).marked t.toNat
      ((∀ w, s.wave = some w → w.state = .arming ∨ w.state = .armed → w.startMark ≠ e.counter + 1) →
        exec (.epochPulse t) s = .next u) ∧
      ∀ w, s.wave = some w → w.state = .arming ∨ w.state = .armed → w.startMark = e.counter + 1 →
        (w.members.map Member.robot).Nodup → EndsIn (.epochPulse t) s fun v => WaveStarts u v w
    let early := next - Wr ≤ T ∧ T ≤ next
    let late := last ≤ T ∧ T ≤ last + Wr
    (e.mode = .free →
      let d := if 2 * (T - last) ≤ Pr then T - last else T - next
      measures d (if -Wr ≤ d ∧ d ≤ Wr then .aligned else .slipped)) ∧
    (e.mode = .track →
      (early → marks (T - next) .aligned .track) ∧
      (¬early → late → rePhases (T - last) .aligned .track) ∧
      (¬early → ¬late → Pr ≤ 2 * (T - last) → marks (T - next) .slipped .track) ∧
      (¬early → ¬late → 2 * (T - last) < Pr → rePhases (T - last) .slipped .track)) ∧
    (e.mode = .once →
      (Pr ≤ 2 * (T - last) → marks (T - next) .aligned .free) ∧
      (2 * (T - last) < Pr → rePhases (T - last) .aligned .free))

/-- A line event leaves alone the trunk port, the timebase, the tables, the open wave, every robot's static fields, every zone's
members, the masks, and the engine, transaction, quiet time, counters and timing of every other line (chapter 6). -/
def Obligations.LineEventsStayOnTheirLine : Prop :=
  ∀ (c : Instr) (l : LineNo) (s : State), eventLine c = some l → ∃ t, exec c s = .next t ∧
    t.trunk = s.trunk ∧ t.epoch = s.epoch ∧ t.curves = s.curves ∧ t.profiles = s.profiles ∧ t.openWave = s.openWave ∧
    (∀ r, (t.robot r).static = (s.robot r).static) ∧
    (∀ z, (t.zone z).memberA = (s.zone z).memberA ∧ (t.zone z).memberB = (s.zone z).memberB) ∧
    t.events.masks = s.events.masks ∧ (∀ k, (t.line k).timing = (s.line k).timing) ∧
    ∀ k, k ≠ l → (t.line k).state = (s.line k).state ∧ (t.line k).txn = (s.line k).txn ∧
      (t.line k).residue = (s.line k).residue ∧ (t.line k).silence = (s.line k).silence ∧
      (t.line k).counters = (s.line k).counters ∧ (t.line k).lastChar = (s.line k).lastChar

/-- The arbiter of an IDLE line quiet for T_GAP starts the HALT broadcast, else the GO, else the urgent head, else the normal
head (its DELIVER before a READ joined to it, which stays at the head), else the poll due earliest; the transaction takes the
drop and timing record held and is counted (R117, R119, R120, R122, R138). Of two polls due at one time the one standing earlier in
the model's poll cycle goes first, which is log entry 21; that a choice with nothing to start, or offered before its time, changes
nothing is log entry 5; and that the frame or answer of an abandoned transaction holds the choice back, while an answer still to
come does not, is log entry 15. -/
def Obligations.ArbiterChoosesByPriority : Prop :=
  ∀ (s : State) (l : LineNo) (t : Time), s.resetLow = false →
    let u := s.clock t
    let e := s.line l
    let c := Instr.lineArbiterChoose l t
    let busy := ∃ ρ f, e.residue = some ρ ∧ (ρ.txn.phase = .sending f ∨ ∃ since, ρ.txn.phase = .receiving f since)
    let start := fun (u : State) (kind : TxnKind) (body : Option Body) (drop : Byte) (st : EngineState) (f : FrameKind)
        (lists : Line → Line) =>
      u.modLine l fun e => { lists e with
        state := st
        txn := some { kind := kind, body := body, drop := drop, timing := e.timing, calls := 1, bodies := 0,
                      phase := .sending f, stale := false }
        residue := none
        counters := { e.counters with transactions := countUp e.counters.transactions } }
    let drop := fun r => (s.robot r).static.drop
    (e.state ≠ .idle ∨ busy ∨ u.now < e.lastChar + e.timing.tGap.toNat → exec c s = .next u) ∧
    (e.state = .idle → ¬busy → e.lastChar + e.timing.tGap.toNat ≤ u.now →
      (e.haltPending = true →
        exec c s = .next (start u .haltAll none 127 .sending .haltAll fun e => { e with haltPending := false })) ∧
      (e.haltPending = false →
        (∀ g, e.goPending = some g →
          exec c s = .next (start u (.go g) none 127 .sending (.go g) fun e => { e with goPending := none })) ∧
        (e.goPending = none →
          (∀ r rest, e.urgent = ⟨r, .clear⟩ :: rest →
            exec c s = .next (start u (.clear r) none (drop r) .awaiting .clear fun e => { e with urgent := rest })) ∧
          (∀ r rest, e.urgent = ⟨r, .halt⟩ :: rest →
            exec c s = .next (start u (.haltSingle r) none (drop r) .awaiting .halt fun e => { e with urgent := rest })) ∧
          (e.urgent = [] →
            (∀ r a b rest, e.normal = ⟨r, false, a, b⟩ :: rest →
              exec c s = .next (start u (.read r a b) none (drop r) .calling .call fun e => { e with normal := rest })) ∧
            (∀ r a b rest m, e.normal = ⟨r, true, a, b⟩ :: rest → s.member? r = some m →
              exec c s = .next (start (u.modMember r fun m => { m with delivery := .inFlight }) (.deliver r)
                (some m.plan.body) (drop r) .calling .call fun e =>
                { e with normal := if a || b then ⟨r, false, a, b⟩ :: rest else rest })) ∧
            (e.normal = [] →
              (∀ before p after, e.cycle = before ++ p :: after → p.due ≤ u.now → (∀ q ∈ before, p.due < q.due) →
                (∀ q ∈ after, p.due ≤ q.due) →
                exec c s = .next (start u (.poll p.robot) none (drop p.robot) .awaiting .poll id)) ∧
              ((∀ q ∈ e.cycle, u.now < q.due) → exec c s = .next u))))))

/-- Frames of an exchange: the end of a frame that awaits an answer begins the wait; a first character within the limit ends it;
the next call, body or short frame goes out after the quiet gap and any T_BODY, using an attempt and counting a retry when sent
again; END goes out after the gap; any other character, and an answer after its limit, restarts the quiet time alone (R122, R126,
R130, R131, R138). An abandoned transaction's frame is completed; an answer to it that begins in time is received, counted when
garbled and goes to no rule, and the silence count stands (R136; that its wait is held until then is log entry 15, and the last
character of a cut answer log entry 6). -/
def Obligations.FramesOfAnExchange : Prop :=
  ∀ (s : State) (l : LineNo) (t : Time), s.resetLow = false →
    let u := s.clock t
    let sent := fun f : Line → Line =>
      (.next (u.modLine l fun e => { f e with lastChar := u.now }) : Host.Outcome State Fault Refusal)
    exec (.strayCharacter l t) s = sent id ∧
    (∀ x : Txn, (s.line l).residue = none → (s.line l).txn = some x →
      let quiet := fun notBefore => (s.line l).lastChar + x.timing.tGap.toNat ≤ u.now ∧ notBefore ≤ u.now
      (∀ f, x.phase = .sending f → f.awaits = true →
        exec (.lineFrameSent l t) s = sent fun e => { e with txn := some { x with phase := .waiting f u.now } }) ∧
      (∀ f since, x.phase = .waiting f since → u.now ≤ since + answerLimit x.timing f →
        exec (.answerBegun l t) s = sent fun e => { e with txn := some { x with phase := .receiving f since } }) ∧
      (∀ f since, x.phase = .waiting f since → since + answerLimit x.timing f < u.now →
        exec (.answerBegun l t) s = sent id ∧ exec (.answerReady l t) s = sent id ∧
          exec (.answerNotReady l t) s = sent id ∧ exec (.answerAccept l t) s = sent id ∧
          exec (.answerRetry l t) s = sent id ∧ (∀ c, exec (.answerRefuse l t c) s = sent id) ∧
          (∀ c p k w n, exec (.answerPoll l t c p k w n) s = sent id) ∧
          (∀ c p k w h e, exec (.answerStatus l t c p k w h e) s = sent id) ∧
          ∀ bytes, exec (.answerGarbled l t bytes) s = sent id) ∧
      (∀ f notBefore, x.phase = .gap f notBefore → quiet notBefore →
        ((∃ b, f = .body b) ∨ f = .readRequest → exec (.nextFrameSend l t) s =
          .next (u.modLine l fun e => { e with
            txn := some { x with phase := .sending f, bodies := x.bodies + 1 }
            counters := { e.counters with
              retries := if x.bodies = 0 then e.counters.retries else countUp e.counters.retries } })) ∧
        (f = .call ∨ f = .clear ∨ f = .halt ∨ f = .poll → exec (.nextFrameSend l t) s =
          .next (u.modLine l fun e => { e with
            txn := some { x with phase := .sending f, calls := x.calls + 1 }
            counters := { e.counters with retries := countUp e.counters.retries } })) ∧
        (f = .endFrame → exec (.endFrameSend l t) s =
          .next (u.modLine l fun e => { e with txn := some { x with phase := .sending .endFrame } })))) ∧
    ∀ ρ : Residue, (s.line l).residue = some ρ →
      let at' := fun p e => { e with residue := some { ρ with txn := { ρ.txn with phase := p } } }
      let gone := fun e : Line => { e with residue := none }
      let garbled := fun e : Line =>
        { e with residue := none, counters := { e.counters with garbled := countUp e.counters.garbled } }
      (∀ f, ρ.txn.phase = .sending f → f.awaits = true → exec (.lineFrameSent l t) s = sent (at' (.waiting f u.now))) ∧
      (ρ.txn.phase = .sending .endFrame → exec (.endSent l t) s = sent gone) ∧
      (∀ f, ρ.txn.phase = .sending f → f.isBroadcast = true → ρ.handOver = false →
        exec (.broadcastSent l t) s = sent gone) ∧
      (∀ f since, ρ.txn.phase = .waiting f since → u.now ≤ since + answerLimit ρ.txn.timing f →
        exec (.answerBegun l t) s = sent (at' (.receiving f since))) ∧
      (∀ f since, ρ.txn.phase = .waiting f since → since + answerLimit ρ.txn.timing f < u.now →
        exec (.answerBegun l t) s = sent id) ∧
      ∀ f since, (ρ.txn.phase = .waiting f since ∧ u.now ≤ since + answerLimit ρ.txn.timing f) ∨
          ρ.txn.phase = .receiving f since →
        (f = .call → exec (.answerReady l t) s = sent gone ∧ exec (.answerAccept l t) s = sent garbled) ∧
        (f = .clear ∨ f = .halt → exec (.answerAccept l t) s = sent gone ∧ exec (.answerRetry l t) s = sent garbled) ∧
        (∀ bytes, (∀ a, readAnswer ρ.txn.drop bytes = some a → answerFits f a = false) →
          exec (.answerGarbled l t bytes) s = sent garbled) ∧
        (ρ.txn.phase = .receiving f since → exec (.answerCharGap l t) s =
          .next (u.modLine l fun e => { garbled e with lastChar := max e.lastChar (u.now - 80) }))

/-- READY to a call leads to the body after the quiet gap; NOT-READY uses the call and leads to another after T_BODY, or to END
when none is left; RETRY to a body uses it and leads to another, or to END when none is left; each sets the silence count to 0
(R126, R127, R131, R133). -/
def Obligations.CallAndBodyAnswers : Prop :=
  ∀ (s : State) (l : LineNo) (t : Time) (x : Txn) (since : Nat),
    let goes := fun (st : EngineState) (f : FrameKind) (notBefore : Nat) =>
      (s.heardAt l t).modLine l fun e => { e with state := st, txn := some { x with phase := .gap f notBefore } }
    let body := match x.body with | some b => FrameKind.body b | none => .readRequest
    (Answering s l t x .call since →
      exec (.answerReady l t) s = .next (goes .awaiting body 0) ∧
      exec (.answerNotReady l t) s = .next (if x.calls < x.timing.nCall.toNat
        then goes .calling .call ((s.clock t).now + x.timing.tBody.toNat) else goes .ending .endFrame 0)) ∧
    ∀ b, Answering s l t x (.body b) since →
      exec (.answerRetry l t) s = .next (if x.bodies < x.timing.nBody.toNat then goes .awaiting body 0
        else goes .ending .endFrame 0)

/-- A garbled answer, one cut short by a gap, a READ answer late, and a wait that ends in silence below DOWN_LIMIT each use the
attempt: a call or short frame is sent again while attempts remain, a call phase or body that failed leads to END. A garbled or
cut answer is counted and sets the silence count to 0; silence raises it and the timeouts counter (R126, R127, R128, R131,
R132, R133, R138; the last character of a cut answer is put four character times back by log entry 6, the model's choice). -/
def Obligations.AttemptsAreUsed : Prop :=
  ∀ (s : State) (l : LineNo) (t : Time) (x : Txn) (f : FrameKind) (since : Nat),
    Exchanging s l x f since → attemptLeft x f →
    let u := s.clock t
    let used := fun e : Line => { e with
      state := (afterAttempt x f).1, txn := some { x with phase := .gap (afterAttempt x f).2 0 } }
    let garbled := fun e : Line => { used e with
      silence := 0, counters := { e.counters with garbled := countUp e.counters.garbled } }
    (∀ bytes, (∀ a, readAnswer x.drop bytes = some a → answerFits f a = false) →
      (x.phase = .waiting f since → u.now ≤ since + answerLimit x.timing f) →
      exec (.answerGarbled l t bytes) s = .next (u.modLine l fun e => { garbled e with lastChar := u.now })) ∧
    (x.phase = .receiving f since → exec (.answerCharGap l t) s =
      .next (u.modLine l fun e => { garbled e with lastChar := max e.lastChar (u.now - 80) })) ∧
    (x.phase = .receiving f since → f = .readRequest →
      since + x.timing.tTurn.toNat + x.timing.tRead.toNat ≤ u.now → exec (.readAnswerDeadline l t) s =
        .next (u.modLine l fun e => { garbled e with lastChar := max e.lastChar (u.now - 80) })) ∧
    (x.phase = .waiting f since → since + answerLimit x.timing f ≤ u.now →
      (s.line l).silence + 1 < x.timing.downLimit.toNat → exec (.answerWaitSilence l t) s =
        .next (u.modLine l fun e => { used e with
          silence := e.silence + 1, counters := { e.counters with timeouts := countUp e.counters.timeouts } }))

/-- Silence that reaches DOWN_LIMIT takes the line DOWN: its transaction and all its work go, LINE_DOWN is raised with the line and
LOST is not, and every undecided member on it is LOST with reason none, CLOSED when its delivery is unsettled, its robot UNCERTAIN
and the zones it held BLOCKED; members decided, members of other lines and all other robots stay as they were. An ARMING wave may
become ARMED, and a RUNNING or ABORTING wave DONE (R79, R83, R113, R134; that a member without a GO time is CLOSED too is log entry
28, read from R74). -/
def Obligations.SilenceTakesTheLineDown : Prop :=
  ∀ (s : State) (l : LineNo) (t : Time) (x : Txn) (f : FrameKind) (since : Nat),
    Exchanging s l x f since → x.phase = .waiting f since → since + answerLimit x.timing f ≤ (s.clock t).now →
    x.timing.downLimit.toNat ≤ (s.line l).silence + 1 →
    let falls := fun m : Member => m ∈ s.members ∧ m.outcome = .none ∧ m.line = l
    EndsIn (.answerWaitSilence l t) s fun u =>
      ((u.line l).state = .down ∧ (u.line l).txn = none ∧ (u.line l).urgent = [] ∧ (u.line l).normal = [] ∧
        (u.line l).cycle = [] ∧ (u.line l).haltPending = false ∧ (u.line l).goPending = none) ∧
      u.events.get .lineDown = (s.events.get .lineDown).raised (halfOf l.val) ∧
      u.events.get .lost = s.events.get .lost ∧
      (∀ m, falls m →
        u.robot m.robot = { s.robot m.robot with
          slot := .uncertain, believed := Position.zero, lastOutcome := .lost, lastReason := .none } ∧
        u.member? m.robot = none ∧ ∀ z, (s.zone z).holder = .moving m.robot → (u.zone z).holder = .blocked) ∧
      (∀ r, (∀ m, falls m → m.robot ≠ r) → u.robot r = s.robot r) ∧ u.armingTested ∧
      ∀ w, s.wave = some w → (w.members.map Member.robot).Nodup → ∃ state : WaveState,
        u.wave = some { w with
          state := state
          members := w.members.map fun m =>
            if m.outcome = .none ∧ m.line = l then
              { m.decided .lost .none with
                delivery := if m.delivery = .accepted ∧ m.goTime ≠ none then .accepted else .closed }
            else m } ∧
          (state = w.state ∨ w.state = .arming ∧ state = .armed ∧ ∀ m ∈ u.members, m.delivery.isSettled)

/-- The end of END closes a failed transaction: a failed DELIVER makes its member CLEARING and its robot STOPPING, with a CLEAR
listed urgent, and removes the READ only when an ABORT listed one for the member (a REFRESH merged with it goes too, log entry 13);
a failed READ that serves no member leaves its robot as it was; one that a read-back waits for decides its member LOST, and the wave
goes on from there; the failure of a transaction whose robot's record was reloaded meanwhile is not judged (R7, R77, R83, R88, R108,
R112, R118, R120, R130). That a member decided with no GO time is CLOSED is log entry 28, read from R74. -/
def Obligations.EndClosesAFailedTransaction : Prop :=
  ∀ (s : State) (l : LineNo) (t : Time) (x : Txn), s.resetLow = false → (s.line l).residue = none →
    (s.line l).txn = some x → x.phase = .sending .endFrame →
    let u := (s.clock t).modLine l fun e => { e with lastChar := (s.clock t).now, state := .idle, txn := none }
    (x.stale = true → (∀ g, x.kind ≠ .go g) → exec (.endSent l t) s = .next u) ∧
    (x.stale = false →
      (∀ r m, x.kind = .deliver r → s.member? r = some m → m.delivery = .inFlight →
        exec (.endSent l t) s = .next ((((u.modRobot r fun b => { b with slot := .stopping }).modMember r fun m =>
          { m with delivery := .clearing, clearLineReset := false, stop := .none }).modLine (s.robot r).static.line fun e =>
          { e with
            normal := if m.stop = .none then e.normal else dropReads e.normal fun q => decide (q = r)
            urgent := if e.state = .down then e.urgent else offerClearTo e.urgent r }))) ∧
      (∀ r, x.kind = .read r true false → WaveOpen s → exec (.endSent l t) s = .next u) ∧
      ∀ r a m round, x.kind = .read r a true → s.member? r = some m → m.stop = .read round →
        EndsIn (.endSent l t) s fun u => (u.line l).state = .idle ∧ (u.line l).txn = none ∧
          EndsUncertain s u r m .lost .none ∧ u.events.get .lost = (s.events.get .lost).raised (halfOf r.val))

/-- The end of a HALT broadcast leaves the line IDLE and goes to no rule. The end of a GO, also of one that a LINE_RESET let end,
starts the wave's ARMED members on the line: each robot is MOVING, its member holds the GO time, its overrun deadline (duration or
home limit, plus grace) and its remaining intervals, and joins the poll cycle one POLL_PERIOD on; no other robot changes (R93, R95,
R129, R135). -/
def Obligations.BroadcastEnds : Prop :=
  ∀ (s : State) (l : LineNo) (t : Time) (x : Txn), s.resetLow = false →
    let now := (s.clock t).now
    let u := (s.clock t).modLine l fun e => { e with lastChar := now, state := .idle, txn := none }
    let inFlight := (s.line l).residue = none ∧ (s.line l).txn = some x
    (inFlight → x.kind = .haltAll → x.phase = .sending .haltAll → exec (.broadcastSent l t) s = .next u) ∧
    ∀ g w, inFlight ∨ (s.line l).residue = some ⟨x, true⟩ ∧ (s.line l).state ≠ .down →
      x.kind = .go g → x.phase = .sending (.go g) → s.wave = some w → w.number = g.wave →
      (w.members.map Member.robot).Nodup →
      let starts := fun m : Member => m ∈ w.members ∧ m.outcome = .none ∧ m.line = l ∧ (s.robot m.robot).slot = .armed
      ∃ v, exec (.broadcastSent l t) s = .next v ∧ (v.line l).residue = none ∧
        (inFlight → (v.line l).state = .idle ∧ (v.line l).txn = none) ∧
        (∀ m, starts m →
          v.robot m.robot = { s.robot m.robot with slot := .moving } ∧
          (∃ p ∈ (v.line l).cycle, p.robot = m.robot ∧ p.due = now + (s.line l).timing.pollPeriod.toNat * 1000) ∧
          { m with
            goTime := some now, remaining := m.plan.n
            deadline := some (now + ((match m.plan.body with
              | .segment g => g.n.toNat | .home _ _ => m.homeLimit.toNat) + m.grace.toNat) * 1000) } ∈ v.members) ∧
        (∀ r, (∀ m, starts m → m.robot ≠ r) → v.robot r = s.robot r) ∧
        v.zones = s.zones ∧ v.events = s.events

/-- The end of a DELIVER. ACCEPT in time makes the member ACCEPTED, and an ARMING wave ARMED when nothing is unsettled; its robot is
ARMED, unless an ABORT has made it STOPPING, when its READ stands. A late ACCEPT makes the member CLEARING with a CLEAR listed. REFUSE
makes it MISSED with reason REFUSED and CLOSED, stores the fault code, returns the robot to its rest state and lists no CLEAR, and the
wave goes on from there. These last two remove the READ only when an ABORT listed one for the member (a REFRESH merged with it goes
too, log entry 13) (R76, R79, R82, R83, R88, R120). -/
def Obligations.DeliverEnds : Prop :=
  ∀ (s : State) (l : LineNo) (t : Time) (x : Txn) (b : Body) (since : Nat) (r : RobotNo) (m : Member) (w : Wave),
    Answering s l t x (.body b) since → x.kind = .deliver r → x.stale = false → s.wave = some w →
    s.member? r = some m → m.delivery = .inFlight →
    let u := s.answeredAt l t
    let reads := fun n => if m.stop = .none then n else dropReads n fun q => decide (q = r)
    (m.late = false →
      ∃ v ms, exec (.answerAccept l t) s = .next { u.modRobot r (fun q =>
            { q with slot := if m.stop = .none then .armed else q.slot }) with wave := some v } ∧
        ms = w.members.map (fun q => if q.robot = r ∧ q.outcome = .none then { q with delivery := .accepted } else q) ∧
        v = { w with
          members := ms
          state := if w.state = .arming ∧ ∀ q ∈ ms, q.delivery = .accepted ∨ q.delivery = .closed then .armed
                   else w.state }) ∧
    (m.late = true →
      exec (.answerAccept l t) s = .next (((u.modRobot r fun q => { q with slot := .stopping }).modMember r fun q =>
        { q with delivery := .clearing, clearLineReset := false, stop := .none }).modLine (s.robot r).static.line fun e =>
        { e with
          normal := reads e.normal
          urgent := if e.state = .down then e.urgent else offerClearTo e.urgent r })) ∧
    ∀ fault, EndsIn (.answerRefuse l t fault) s fun v => (v.line l).state = .idle ∧ (v.line l).txn = none ∧
      EndsAtRest (s.modRobot r fun b => { b with fault := fault }) v r
        { m.decided .missed .refused with delivery := .closed } .missed .refused ∧ v.armingTested ∧
      (v.line (s.robot r).static.line).normal = reads (s.line (s.robot r).static.line).normal ∧
      ∀ k, (v.line k).urgent = (s.line k).urgent

/-- The end of a CLEAR. For a CLEARING member, ACCEPT makes it MISSED, with reason LINE_RESET when a LINE_RESET caused the CLEAR,
and its robot returns to its rest state; REFUSE stores the fault code and begins the read-back with a HALT single, the robot
STOPPING still and the delivery ACCEPTED, which may make an ARMING wave ARMED; a failure makes it LOST and CLOSED. For the CLEAR of
a read-back, ACCEPT is HALTED_AT_START at the rest state, REFUSE HALTED_UNKNOWN with the fault code stored, a failure LOST. The wave
goes on from each decision (R78, R79, R83, R108, R128). That a member decided with no GO time is CLOSED is log entry 28, read from
R74. -/
def Obligations.ClearEnds : Prop :=
  ∀ (s : State) (l : LineNo) (t : Time) (x : Txn) (since : Nat) (r : RobotNo) (m : Member),
    x.kind = .clear r → x.stale = false → s.member? r = some m →
    let line := (s.robot r).static.line
    let free := fun v : State => (v.line l).state = .idle ∧ (v.line l).txn = none
    let rests := fun (v : State) (m : Member) (o : Ending) (why : Reason) => free v ∧ v.armingTested ∧ EndsAtRest s v r m o why
    let lost := fun (v : State) (m : Member) => free v ∧ v.armingTested ∧ EndsUncertain s v r m .lost .none ∧
      v.events.get .lost = (s.events.get .lost).raised (halfOf r.val)
    let why := if m.clearLineReset then Reason.lineReset else .none
    (m.delivery = .clearing →
      (Answering s l t x .clear since → EndsIn (.answerAccept l t) s fun v =>
        rests v { m.decided .missed why with delivery := .closed } .missed why) ∧
      (Answering s l t x .clear since → ∀ fault, ∃ v, exec (.answerRefuse l t fault) s = .next v ∧ free v ∧
        v.robot r = { s.robot r with fault := fault } ∧ v.armingTested ∧
        v.member? r = some { m with delivery := .accepted, stop := .halt 1 } ∧ (∀ q ∈ s.members, q.robot ≠ r → q ∈ v.members) ∧
        ((s.line line).state ≠ .down → (v.line line).urgent = offerHaltTo (s.line line).urgent r)) ∧
      ∀ c, FailsLast s l t x .clear since c → EndsIn c s fun v => lost v { m with delivery := .closed }) ∧
    (m.delivery ≠ .clearing → m.stop = .clear →
      (Answering s l t x .clear since →
        EndsIn (.answerAccept l t) s (fun v => rests v (m.decided .haltedAtStart .none) .haltedAtStart .none) ∧
        ∀ fault, EndsIn (.answerRefuse l t fault) s fun v => free v ∧ v.armingTested ∧
          EndsUncertain (s.modRobot r fun b => { b with fault := fault }) v r m .haltedUnknown .none) ∧
      ∀ c, FailsLast s l t x .clear since c → EndsIn c s fun v => lost v m)

/-- A poll answer of MOVING or HOMING with the wave's number stores the remaining intervals and puts the next poll one
POLL_PERIOD on; one of ARMED takes the member out of the poll cycle, cancels its deadline, and makes it CLEARING and its robot
STOPPING, with a CLEAR listed. A valid poll answer for a robot that is no longer MOVING decides and stores nothing (R95, R97, R100,
R102). -/
def Obligations.PollLeavesOrClears : Prop :=
  ∀ (s : State) (l : LineNo) (t : Time) (x : Txn) (since : Nat) (r : RobotNo) (posOk fault : Byte) (remaining : Half),
    Answering s l t x .poll since → x.kind = .poll r → x.stale = false →
    let u := s.answeredAt l t
    (∀ m w, s.wave = some w → s.member? r = some m → (s.robot r).slot = .moving →
      (∀ code : Byte, code = 2 ∨ code = 3 →
        exec (.answerPoll l t code posOk fault w.number remaining) s =
          .next ((u.modMember r fun q => { q with remaining := remaining }).modLine m.line fun e =>
            { e with cycle := e.cycle.map fun p =>
                if p.robot = r then
                  { p with due := (s.clock t).now + (s.line m.line).timing.pollPeriod.toNat * 1000 }
                else p })) ∧
      ∀ wave : Half, exec (.answerPoll l t 1 posOk fault wave remaining) s =
        .next (((u.modRobot r fun b => { b with slot := .stopping }).modMember r fun q =>
          { q with deadline := none, stop := .none, delivery := .clearing, clearLineReset := false }).modLine
            (s.robot r).static.line fun e =>
          { e with
            cycle := e.cycle.filter fun p => p.robot ≠ r
            urgent := if e.state = .down then e.urgent else offerClearTo e.urgent r })) ∧
    ((s.robot r).slot ≠ .moving → WaveOpen s → ∀ (code : Byte) (wave : Half), code.toNat ≤ 6 →
      exec (.answerPoll l t code posOk fault wave remaining) s = .next u)

/-- A poll that decides its member. ARRIVED with position-ok and the wave's number: the robot is IDLE at the target, a GOTO pushes its
start on the stack of at most four, a RETRACE removes the top, and no zone naming the robot stays held MOVING by it. ARRIVED without
position-ok (MISMATCH), STALLED, FAULT, IDLE, or another wave's number (LOSTSEG): the fault code is stored, the robot is UNCERTAIN, and
STALL is raised. A poll that ends without a valid answer: LOST. From each the wave goes on: with the last outcome of a RUNNING or
ABORTING wave it is DONE and WAVE_DONE is raised; a chain remaining over an empty deferred list ends, and over a list with entries a
chain commit takes them: it creates the next wave, or leaves the record DONE and raises CHAIN_STUCK (R13, R14, R15, R83, R84, R85,
R86, R98, R99, R101). That a member without a GO time, which no run polls, would be CLOSED is log entry 28. -/
def Obligations.PollDecides : Prop :=
  ∀ (s : State) (l : LineNo) (t : Time) (x : Txn) (since : Nat) (r : RobotNo) (m : Member) (w : Wave)
    (fault : Byte) (remaining : Half),
    x.kind = .poll r → x.stale = false → s.wave = some w → s.member? r = some m → (s.robot r).slot = .moving →
    (Answering s l t x .poll since →
      (∀ posOk : Byte, posOk ≠ 0 → EndsIn (.answerPoll l t 4 posOk fault w.number remaining) s fun v => Arrives s v r m) ∧
      ∀ (code posOk : Byte) (wave : Half) (why : Reason),
        (code = 4 ∧ posOk = 0 ∧ wave = w.number ∧ why = .mismatch) ∨
          ((code = 5 ∨ code = 6) ∧ wave = w.number ∧ why = .none) ∨
          (code = 0 ∧ wave = w.number ∧ why = .lostSeg) ∨
          (code.toNat ≤ 6 ∧ code ≠ 1 ∧ wave ≠ w.number ∧ why = .lostSeg) →
        EndsIn (.answerPoll l t code posOk fault wave remaining) s fun v =>
          EndsUncertain (s.modRobot r fun b => { b with fault := fault }) v r m .stalled why ∧
            v.events.get .stall = (s.events.get .stall).raised (halfOf r.val)) ∧
    ∀ c, FailsLast s l t x .poll since c → EndsIn c s fun v =>
      (v.line l).state = .idle ∧ (v.line l).txn = none ∧
        EndsUncertain s v r m .lost .none ∧ v.events.get .lost = (s.events.get .lost).raised (halfOf r.val)

/-- A STATUS answer to a READ that a REFRESH listed, in time, stores the reported steps, the valid flag and the fault code. An
IDLE robot reported in another state than IDLE or ARRIVED, or elsewhere than its believed steps, is UNCERTAIN with outcome
STALLED and reason DRIFT, and STALL is raised; any other robot is left as it was. The answer that ends a transaction whose robot's
record was reloaded meanwhile is neither stored nor judged (R7, R10, R105, R112, R131). -/
def Obligations.RefreshAnswered : Prop :=
  ∀ (s : State) (l : LineNo) (t : Time) (x : Txn) (since : Nat),
    (∀ (r : RobotNo) (code posOk fault : Byte) (wave : Half) (hub elbow : Word),
      Exchanging s l x .readRequest since → x.kind = .read r true false → x.stale = false → WaveOpen s →
      code.toNat ≤ 6 → (s.clock t).now ≤ since + x.timing.tTurn.toNat + x.timing.tRead.toNat →
      let drifted := (s.robot r).slot = .idle ∧
        ¬((code = 0 ∨ code = 4) ∧ hub = (s.robot r).believed.steps.hub ∧ elbow = (s.robot r).believed.steps.elbow)
      let stored := { s.robot r with reported := ⟨hub, elbow⟩, reportedValid := true, fault := fault }
      (¬drifted → exec (.answerStatus l t code posOk fault wave hub elbow) s =
        .next ((s.answeredAt l t).modRobot r fun _ => stored)) ∧
      (drifted → ∃ v, exec (.answerStatus l t code posOk fault wave hub elbow) s = .next v ∧
        v.robot r = { stored with
          slot := .uncertain, believed := Position.zero, lastOutcome := .stalled, lastReason := .drift } ∧
        v.events.get .stall = (s.events.get .stall).raised (halfOf r.val) ∧ v.wave = s.wave ∧
        ∀ q, q ≠ r → v.robot q = s.robot q)) ∧
    ∀ f, Answering s l t x f since → x.stale = true → (∀ g, x.kind ≠ .go g) →
      let ended := fun c => exec c s = .next (s.answeredAt l t)
      ((∃ b, f = .body b) ∨ f = .clear ∨ f = .halt → ended (.answerAccept l t)) ∧
      ((∃ b, f = .body b) ∨ f = .clear → ∀ fault, ended (.answerRefuse l t fault)) ∧
      (f = .poll → ∀ (code posOk fault : Byte) (wave remaining : Half), code.toNat ≤ 6 →
        ended (.answerPoll l t code posOk fault wave remaining)) ∧
      (f = .readRequest → ∀ (code posOk fault : Byte) (wave : Half) (hub elbow : Word), code.toNat ≤ 6 →
        (s.clock t).now ≤ since + x.timing.tTurn.toNat + x.timing.tRead.toNat →
        ended (.answerStatus l t code posOk fault wave hub elbow))

/-- A STATUS answer to the READ of a read-back stores the reported steps and the fault code. A robot at rest at its start steps is
HALTED_AT_START in its rest state; at its target steps it has ARRIVED, with the believed position, the stack and the zones of an
arrival; elsewhere it is HALTED_UNKNOWN; and it leaves every list of its line. ARRIVED without position-ok is STALLED with MISMATCH,
STALLED or FAULT is STALLED, and STALL is raised; ARMED leads to a CLEAR; MOVING or HOMING leads to a second HALT round, then to
HALTED_UNKNOWN. STALLED and HALTED_UNKNOWN leave the robot UNCERTAIN at zero and its zones BLOCKED. The wave goes on from each
decision (R14, R15, R54, R83, R98, R105, R106, R107, R108; that an entry another request listed leaves its list too is log entry 12,
read from R106; that a member decided with no GO time is CLOSED is log entry 28, read from R74). -/
def Obligations.ReadBackAnswered : Prop :=
  ∀ (s : State) (l : LineNo) (t : Time) (x : Txn) (since : Nat) (r : RobotNo) (m : Member) (round : Nat)
    (refresh : Bool) (code posOk fault : Byte) (wave : Half) (hub elbow : Word),
    Exchanging s l x .readRequest since → x.kind = .read r refresh true → x.stale = false → s.member? r = some m →
    m.stop = .read round →
    code.toNat ≤ 6 → (s.clock t).now ≤ since + x.timing.tTurn.toNat + x.timing.tRead.toNat →
    EndsIn (.answerStatus l t code posOk fault wave hub elbow) s fun v =>
      let stored := s.modRobot r fun b => { b with reported := ⟨hub, elbow⟩, reportedValid := true, fault := fault }
      let line := (s.robot r).static.line
      let atRest := code = 0 ∨ code = 4 ∧ posOk ≠ 0
      let atStart := ∃ p, m.plan.start = some p ∧ p.steps = ⟨hub, elbow⟩
      let unknown := EndsUncertain stored v r m .haltedUnknown .none ∧ v.events.get .stall = s.events.get .stall
      let stalled := fun why : Reason => EndsUncertain stored v r m .stalled why ∧
        v.events.get .stall = (s.events.get .stall).raised (halfOf r.val)
      let waits := fun ph : StopPhase => v.robots = stored.robots ∧ v.zones = s.zones ∧ v.events = s.events ∧
        v.member? r = some { m with stop := ph }
      (atRest → (v.line line).urgent = (s.line line).urgent.filter (fun y => y.robot ≠ r) ∧
        (v.line line).normal = (s.line line).normal.filter (fun y => y.robot ≠ r) ∧
        (v.line line).cycle = (s.line line).cycle.filter fun y => y.robot ≠ r) ∧
      (atRest → atStart → EndsAtRest stored v r (m.decided .haltedAtStart .none) .haltedAtStart .none) ∧
      (atRest → ¬atStart → m.plan.target.steps = ⟨hub, elbow⟩ → Arrives stored v r m) ∧
      (atRest → ¬atStart → m.plan.target.steps ≠ ⟨hub, elbow⟩ → unknown) ∧
      (code = 4 → posOk = 0 → stalled .mismatch) ∧
      (code = 5 ∨ code = 6 → stalled .none) ∧
      (code = 1 → waits .clear ∧
        ((v.line line).state ≠ .down → (v.line line).urgent = offerClearTo (s.line line).urgent r)) ∧
      (code = 2 ∨ code = 3 → round = 1 → waits (.halt 2) ∧
        ((v.line line).state ≠ .down → (v.line line).urgent = offerHaltTo (s.line line).urgent r)) ∧
      (code = 2 ∨ code = 3 → round ≠ 1 → unknown)

/-- The overrun deadline of a MOVING member that has passed makes its robot STOPPING, takes the member out of the poll cycle and
lists a HALT single; before it, or for a robot not MOVING, nothing changes but the time (R94, R103; a command offered before its
time is log entry 5, the model's choice). The end of a HALT single, answered or failed: for an overrun member OVERRUN, its robot
UNCERTAIN, OVERRUN raised, and the wave goes on from there (R83, R104); for a read-back round its READ is listed (R105); with no
member waiting for it nothing is judged (R109). That a member without a GO time, which no run has overrun, would be CLOSED is log
entry 28. -/
def Obligations.OverrunDeadline : Prop :=
  (∀ (s : State) (r : RobotNo) (t : Time) (m : Member) (d : Nat), s.resetLow = false → s.member? r = some m →
    m.deadline = some d →
    let u := s.clock t
    ((s.robot r).slot = .moving → d ≤ u.now → exec (.overrunDeadline r t) s =
      .next (((u.modRobot r fun b => { b with slot := .stopping }).modMember r fun q =>
        { q with deadline := none, stop := .overrunHalt }).modLine (s.robot r).static.line fun e =>
        { e with
          cycle := e.cycle.filter fun p => p.robot ≠ r
          urgent := if e.state = .down then e.urgent else offerHaltTo e.urgent r })) ∧
    ((s.robot r).slot ≠ .moving ∨ u.now < d → exec (.overrunDeadline r t) s = .next u)) ∧
  ∀ (s : State) (l : LineNo) (t : Time) (x : Txn) (since : Nat) (r : RobotNo) (c : Instr),
    (Answering s l t x .halt since ∧ c = .answerAccept l t) ∨ FailsLast s l t x .halt since c →
    x.kind = .haltSingle r → x.stale = false →
    let line := (s.robot r).static.line
    (∀ m, s.member? r = some m → m.stop = .overrunHalt → EndsIn c s fun v => (v.line l).state = .idle ∧
      (v.line l).txn = none ∧ EndsUncertain s v r m .overrun .none ∧
        v.events.get .overrun = (s.events.get .overrun).raised (halfOf r.val)) ∧
    ((∀ m, s.member? r = some m → m.stop ≠ .overrunHalt) →
     ∃ v, exec c s = .next v ∧ (v.line l).state = .idle ∧ (v.line l).txn = none ∧
      (∀ m round, s.member? r = some m → m.stop = .halt round →
        v.member? r = some { m with stop := .read round } ∧ v.robots = s.robots ∧ v.events = s.events ∧
          ((s.line line).state ≠ .down → (v.line line).normal = offerReadTo (s.line line).normal r false true)) ∧
      ((∀ m, s.member? r = some m → ∀ round, m.stop ≠ .halt round) →
        v.robots = s.robots ∧ v.wave = s.wave ∧ v.zones = s.zones ∧ v.events = s.events ∧
          ∀ k, (v.line k).urgent = (s.line k).urgent ∧ (v.line k).normal = (s.line k).normal ∧
            (v.line k).cycle = (s.line k).cycle))

/-! ### Calibration and plans -/

/-- The correction of an angle in its axis range: the offset is `k` knots and a residue of 0 to one spacing, `k` at most 15; the
correction is the knot plus the next knot's difference times the residue over the spacing, rounded toward zero. It is the knot
at a knot, knot 16 at the top, and at most 8192 in size. Target steps are the offset plus the exact product, or sum of
products, over 65 536 rounded to the nearest, ties away from zero; the elbow's coupling term uses the corrected hub target
(R21, R28, R29). -/
def Obligations.TargetsAreCorrectedAndGeared : Prop :=
  (∀ (c : Curve) (lo spacing θ : Int), CurveOk c → 0 < spacing → lo ≤ θ → θ ≤ lo + 16 * spacing →
     (∃ (k : Nat) (r : Int), k ≤ 15 ∧ 0 ≤ r ∧ r ≤ spacing ∧ (r = spacing → k = 15) ∧ θ = lo + k * spacing + r ∧
       ∃ d : Int, correction c lo spacing θ = c.knot k + d ∧
         (0 ≤ (c.knot (k + 1) - c.knot k) * r →
           0 ≤ d ∧ d * spacing ≤ (c.knot (k + 1) - c.knot k) * r ∧
             (c.knot (k + 1) - c.knot k) * r < (d + 1) * spacing) ∧
         ((c.knot (k + 1) - c.knot k) * r ≤ 0 →
           d ≤ 0 ∧ (c.knot (k + 1) - c.knot k) * r ≤ d * spacing ∧
             (d - 1) * spacing < (c.knot (k + 1) - c.knot k) * r)) ∧
     (∀ k : Nat, k ≤ 16 → θ = lo + k * spacing → correction c lo spacing θ = c.knot k) ∧
     -8192 ≤ correction c lo spacing θ ∧ correction c lo spacing θ ≤ 8192) ∧
  (∀ v : Int, 2 * (65536 * roundUnit v - v).natAbs ≤ 65536 ∧
    (2 * (65536 * roundUnit v - v).natAbs = 65536 → (roundUnit v).natAbs * 65536 > v.natAbs)) ∧
  ∀ (s : State) (b : RobotStatic) (a : Pair),
    let hub := a.hub.toInt + correction (s.curve b.hubCurve) (-190000) 23750 a.hub.toInt
    let elbow := a.elbow.toInt + correction (s.curve b.elbowCurve) 0 11875 a.elbow.toInt
    targetSteps s b a =
      (b.offHub.toInt + roundUnit ((b.gearHub.toNat : Int) * hub),
        b.offElbow.toInt + roundUnit ((b.gearElbow.toNat : Int) * elbow + b.coupling.toInt * hub))

/-- The sweep tables are exact. The fence's holds exactly when some hub angle between the ends, both included, lies in the forbidden
set, for ends in the hub range and a loaded fence (R3, R35). A robot intrudes a zone exactly when its hub angle lies in the link's
window, plain or wrapped, and its elbow is at the threshold or above; the swept test holds exactly when some position between start
and target on both axes does, and so does the need for the zone, which the intrusions at start and target add nothing to (R45, R46,
R47). A GOTO or RETRACE needs the zones of the links so swept, a HOME those its start intrudes, one from UNCERTAIN none, in the
order of the links (R48, R49). -/
def Obligations.SweepsMeetTheirSets : Prop :=
  (∀ (b : RobotStatic) (a c : Int), inHub b.fs = true → inHub b.fe = true → -190000 ≤ a → a ≤ c → c ≤ 190000 →
    (sweepForbidden b a c = true ↔ ∃ h : Int, a ≤ h ∧ h ≤ c ∧ forbidden b h = true)) ∧
  (∀ (k : Link) (a b : Pair),
    let meets := fun h e : Int => k.thr.toInt ≤ e ∧
      if k.ws.toInt ≤ k.we.toInt then k.ws.toInt ≤ h ∧ h ≤ k.we.toInt else h ≤ k.we.toInt ∨ k.ws.toInt ≤ h
    let reached := ∃ h e : Int, meets h e ∧
      min a.hub.toInt b.hub.toInt ≤ h ∧ h ≤ max a.hub.toInt b.hub.toInt ∧
      min a.elbow.toInt b.elbow.toInt ≤ e ∧ e ≤ max a.elbow.toInt b.elbow.toInt
    (k.intrudedAt a = true ↔ meets a.hub.toInt a.elbow.toInt) ∧ (k.sweptBy a b = true ↔ reached) ∧
      (k.neededFor a b = true ↔ reached)) ∧
  ∀ (links : List Link) (kind : MoveKind) (p : Plan),
    (neededZones links kind p).Sublist (links.map Link.zone) ∧
    (p.start = none → neededZones links kind p = []) ∧
    ∀ start, p.start = some start → ∀ z, z ∈ neededZones links kind p ↔ ∃ k ∈ links, k.zone = z ∧
      (if kind = .home then k.intrudedAt start.angles else k.neededFor start.angles p.target.angles) = true

/-- The plan of a candidate, from the robot, move record and profile held at the commit. A GOTO goes from the believed position to the
record's target, a RETRACE to the top of the stack, under a loaded profile: FENCED first, a zero move next, then the least duration
that keeps both axes to their top speeds and is at least N_min, LONG above 65 535; the segment's fields satisfy
N × X + A = |Δ| × 65 536 with A below N and X at most V × 65 536, and lose no bit. A HOME is never FENCED, NULL or LONG: it starts at
the believed position, or nowhere from UNCERTAIN, and holds the home position, its steps and the profile's home limit (R34, R35, R36,
R37, R38, R39). -/
def Obligations.PlansSatisfyTheirBounds : Prop :=
  ∀ (s : State) (m : MoveRecord),
    let b := s.robot m.robot
    let p := s.profile m.profile
    (∀ target : Position, ProfileOk p →
      (∃ g, m.what = .goto g ∧ target = ⟨g.angles, g.steps⟩) ∨ (m.what = .retrace ∧ ∃ below, b.stack = target :: below) →
      let start := b.believed
      let dh := target.steps.hub.toInt - start.steps.hub.toInt
      let de := target.steps.elbow.toInt - start.steps.elbow.toInt
      let fits := fun n : Nat => dh.natAbs ≤ n * p.vHub.toNat ∧ de.natAbs ≤ n * p.vElbow.toNat ∧ p.nMin.toNat ≤ n
      let fenced := sweepForbidden b.static (min start.angles.hub.toInt target.angles.hub.toInt)
        (max start.angles.hub.toInt target.angles.hub.toInt) = true
      match planCandidate s m with
      | .fenced => fenced
      | .null => ¬fenced ∧ dh = 0 ∧ de = 0
      | .long => ¬fenced ∧ ¬(dh = 0 ∧ de = 0) ∧ ¬fits 65535
      | .plan q => ¬fenced ∧ ¬(dh = 0 ∧ de = 0) ∧ q.start = some start ∧ q.target = target ∧
          ∃ g, q.body = .segment g ∧ fits g.n.toNat ∧ (∀ n, fits n → g.n.toNat ≤ n) ∧ 1 ≤ g.n.toNat ∧
            g.n.toNat * g.xHub.toNat + g.aHub.toNat = dh.natAbs * 65536 ∧ g.aHub.toNat < g.n.toNat ∧
            g.n.toNat * g.xElbow.toNat + g.aElbow.toNat = de.natAbs * 65536 ∧ g.aElbow.toNat < g.n.toNat ∧
            g.xHub.toNat ≤ p.vHub.toNat * 65536 ∧ g.xElbow.toNat ≤ p.vElbow.toNat * 65536 ∧
            (g.hubNegative = true ↔ dh < 0) ∧ (g.elbowNegative = true ↔ de < 0)) ∧
    (m.what = .home → planCandidate s m = .plan
      { start := if b.slot = .uncertain then none else some b.believed
        target := ⟨b.static.homeAngles, b.static.homeSteps⟩
        body := .home b.static.homeSteps p.homeLimit })

/-- The step generator with the increments of a delta over N intervals takes exactly the delta's steps and ends with phase and
remainder 0; with a delta other than 0 it takes its last step in interval N; and no interval takes more than V steps when the
duration keeps the axis to V steps an interval (R41, R42). -/
def Obligations.GeneratorTakesExactlyTheDelta : Prop :=
  ∀ (d : Int) (n : Nat), 0 < n →
    let x := increment d n
    let a := remainderTerm d n
    Axis.after x a n n = { phase := 0, remainder := 0, steps := d.natAbs } ∧
      (d ≠ 0 → (Axis.after x a n (n - 1)).steps < d.natAbs) ∧
      ∀ v k, d.natAbs ≤ n * v → 1 ≤ k → k ≤ n → Axis.stepsIn x a n k ≤ v

/-! ### Zones and lists -/

/-- Settling the selected zones sets each holder from its members' presence: BLOCKED with a member UNKNOWN or with both IN, PARKED
by the one that is IN, FREE with both OUT; an entry held MOVING by a robot in a wave state is not touched, and ZONE_CONFLICT is
raised once for each entry settled with both IN. Presence is as R50's table gives it, row by row (R46, R50, R51, R52); that a robot
homing from UNCERTAIN is OUT in a zone it has no link to and that newly named it while it was in a wave state is log entry 35, the
model's choice between the table, R54 and R59. -/
def Obligations.SettlementFollowsPresence : Prop :=
  ∀ (s : State) (sel : Nat → Zone → Bool),
    let at' := fun (r : Option RobotNo) (z : ZoneId) => s.presence s.undecidedMembers (s.zone z) r z.val
    let settles := fun z : ZoneId => sel z.val (s.zone z) = true ∧
      ∀ r, (s.zone z).holder = .moving r → (s.robot r).slot.inWave = false
    let t := s.settle sel
    (∀ z, ¬settles z → t.zone z = s.zone z) ∧
    (∀ z, settles z →
      (t.zone z).memberA = (s.zone z).memberA ∧ (t.zone z).memberB = (s.zone z).memberB ∧
      let pa := at' (s.zone z).memberA z
      let pb := at' (s.zone z).memberB z
      (pa = .unknown ∨ pb = .unknown → (t.zone z).holder = .blocked) ∧
      (pa = .isIn → pb = .isIn → (t.zone z).holder = .blocked) ∧
      (∀ r, (s.zone z).memberA = some r → pa = .isIn → pb = .out → (t.zone z).holder = .parked r) ∧
      (∀ r, (s.zone z).memberB = some r → pa = .out → pb = .isIn → (t.zone z).holder = .parked r) ∧
      (pa = .out → pb = .out → (t.zone z).holder = .free)) ∧
    (∃ zones events, t = { s with zones := zones, events := events }) ∧
    (t.events.get .zoneConflict).count.toNat = min 255 ((s.events.get .zoneConflict).count.toNat +
      ((List.finRange 1024).filter fun z => sel z.val (s.zone z) && s.conflicts s.undecidedMembers z.val (s.zone z)).length) ∧
    (∀ c, c ≠ .zoneConflict → t.events.get c = s.events.get c) ∧
    (∀ z r, (s.robot r).slot = .absent → at' (some r) z = .out) ∧
    (∀ z r, (s.robot r).slot = .uncertain → at' (some r) z = .unknown) ∧
    (∀ z r, (s.robot r).slot = .idle → at' (some r) z =
      if (∃ k ∈ (s.robot r).static.links, k.zone = z ∧ k.intrudedAt (s.robot r).believed.angles = true) then .isIn
      else .out) ∧
    (∀ z r m, (s.robot r).slot.inWave = true → s.member? r = some m → m.kind = .home → m.plan.start = none →
      at' (some r) z =
        if (s.zone z).joinedBy r = true ∧ ∀ k ∈ (s.robot r).static.links, k.zone ≠ z then .out else .unknown) ∧
    (∀ z r m, (s.robot r).slot.inWave = true → s.member? r = some m → m.kind ≠ .home ∨ m.plan.start ≠ none →
      at' (some r) z = if z ∈ neededZones (s.robot r).static.links m.kind m.plan then .isIn else .out) ∧
    ∀ z, at' none z = .out

/-- When a robot becomes UNCERTAIN its believed position is zero, every zone held by it is BLOCKED, and every other zone naming it
is BLOCKED unless the other member in a wave state holds it MOVING; its stack and reports are kept (R9, R16, R53, R54). -/
def Obligations.UncertainRobotBlocksItsZones : Prop :=
  ∀ (s : State) (r : RobotNo),
    let t := s.becomeUncertain r
    t.robot r = { s.robot r with slot := .uncertain, believed := Position.zero } ∧
    (∀ q, q ≠ r → t.robot q = s.robot q) ∧
    (∀ z, (s.zone z).holder = .moving r ∨ (s.zone z).holder = .parked r → (t.zone z).holder = .blocked) ∧
    (∀ z, (s.zone z).names r = true → (t.zone z).holder = .blocked ∨
      ∃ q, q ≠ r ∧ (t.zone z).holder = .moving q ∧ (s.robot q).slot.inWave = true) ∧
    ∀ z, (s.zone z).names r = false → (s.zone z).holder ≠ .moving r → (s.zone z).holder ≠ .parked r →
      t.zone z = s.zone z

/-- Work offered for a robot with an entry already listed: a HALT single merges into a listed entry, a CLEAR replaces a HALT
single in its place or merges; a READ merges with a listed READ or joins a listed DELIVER in its place; a DELIVER goes to the
tail and takes a listed READ with it. With no entry listed the work joins at the tail (R119, R120). -/
def Obligations.OffersMergeInPlace : Prop :=
  ∀ r : RobotNo,
    (∀ u : List UrgentEntry, (∀ x ∈ u, x.robot ≠ r) →
      offerHaltTo u r = u ++ [⟨r, .halt⟩] ∧ offerClearTo u r = u ++ [⟨r, .clear⟩]) ∧
    (∀ (before after : List UrgentEntry) (k : UrgentKind), (∀ x ∈ before ++ after, x.robot ≠ r) →
      offerHaltTo (before ++ ⟨r, k⟩ :: after) r = before ++ ⟨r, k⟩ :: after ∧
        offerClearTo (before ++ ⟨r, k⟩ :: after) r = before ++ ⟨r, .clear⟩ :: after) ∧
    (∀ n : List NormalEntry, (∀ x ∈ n, x.robot ≠ r) → ∀ a b,
      offerReadTo n r a b = n ++ [⟨r, false, a, b⟩] ∧ offerDeliverTo n r = n ++ [⟨r, true, false, false⟩]) ∧
    ∀ (before after : List NormalEntry) (d a b : Bool), (∀ x ∈ before ++ after, x.robot ≠ r) →
      (∀ a' b', offerReadTo (before ++ ⟨r, d, a, b⟩ :: after) r a' b' =
        before ++ ⟨r, d, a || a', b || b'⟩ :: after) ∧
      offerDeliverTo (before ++ ⟨r, d, a, b⟩ :: after) r = before ++ after ++ [⟨r, true, a, b⟩] ∧
      dropDeliver (before ++ ⟨r, d, a, b⟩ :: after) r =
        before.filter NormalEntry.live ++ (if a || b then [⟨r, false, a, b⟩] else []) ++ after.filter NormalEntry.live
end

