-- ==== Sys2Proof/Laws/State.lean ====
section
/-!
SUPPORT. What each named update of the state leaves unchanged, field by field.
-/

namespace Sys2Proof.Machine

variable (s : State)

/-! ### `setRobot` -/

@[simp] theorem State.setRobot_pending (r : RobotNo) (b : Robot) : (s.setRobot r b).pending = s.pending := rfl
@[simp] theorem State.setRobot_resetLow (r : RobotNo) (b : Robot) : (s.setRobot r b).resetLow = s.resetLow := rfl
@[simp] theorem State.setRobot_timer (r : RobotNo) (b : Robot) : (s.setRobot r b).timer = s.timer := rfl
@[simp] theorem State.setRobot_curves (r : RobotNo) (b : Robot) : (s.setRobot r b).curves = s.curves := rfl
@[simp] theorem State.setRobot_profiles (r : RobotNo) (b : Robot) : (s.setRobot r b).profiles = s.profiles := rfl
@[simp] theorem State.setRobot_zones (r : RobotNo) (b : Robot) : (s.setRobot r b).zones = s.zones := rfl
@[simp] theorem State.setRobot_openWave (r : RobotNo) (b : Robot) : (s.setRobot r b).openWave = s.openWave := rfl
@[simp] theorem State.setRobot_deferred (r : RobotNo) (b : Robot) : (s.setRobot r b).deferred = s.deferred := rfl
@[simp] theorem State.setRobot_wave (r : RobotNo) (b : Robot) : (s.setRobot r b).wave = s.wave := rfl
@[simp] theorem State.setRobot_waveCounter (r : RobotNo) (b : Robot) : (s.setRobot r b).waveCounter = s.waveCounter := rfl
@[simp] theorem State.setRobot_lines (r : RobotNo) (b : Robot) : (s.setRobot r b).lines = s.lines := rfl
@[simp] theorem State.setRobot_epoch (r : RobotNo) (b : Robot) : (s.setRobot r b).epoch = s.epoch := rfl
@[simp] theorem State.setRobot_trunk (r : RobotNo) (b : Robot) : (s.setRobot r b).trunk = s.trunk := rfl
@[simp] theorem State.setRobot_events (r : RobotNo) (b : Robot) : (s.setRobot r b).events = s.events := rfl

/-! ### `modRobot` -/

@[simp] theorem State.modRobot_pending (r : RobotNo) (f : Robot → Robot) : (s.modRobot r f).pending = s.pending := rfl
@[simp] theorem State.modRobot_resetLow (r : RobotNo) (f : Robot → Robot) : (s.modRobot r f).resetLow = s.resetLow := rfl
@[simp] theorem State.modRobot_timer (r : RobotNo) (f : Robot → Robot) : (s.modRobot r f).timer = s.timer := rfl
@[simp] theorem State.modRobot_curves (r : RobotNo) (f : Robot → Robot) : (s.modRobot r f).curves = s.curves := rfl
@[simp] theorem State.modRobot_profiles (r : RobotNo) (f : Robot → Robot) : (s.modRobot r f).profiles = s.profiles := rfl
@[simp] theorem State.modRobot_zones (r : RobotNo) (f : Robot → Robot) : (s.modRobot r f).zones = s.zones := rfl
@[simp] theorem State.modRobot_openWave (r : RobotNo) (f : Robot → Robot) : (s.modRobot r f).openWave = s.openWave := rfl
@[simp] theorem State.modRobot_deferred (r : RobotNo) (f : Robot → Robot) : (s.modRobot r f).deferred = s.deferred := rfl
@[simp] theorem State.modRobot_wave (r : RobotNo) (f : Robot → Robot) : (s.modRobot r f).wave = s.wave := rfl
@[simp] theorem State.modRobot_waveCounter (r : RobotNo) (f : Robot → Robot) : (s.modRobot r f).waveCounter = s.waveCounter := rfl
@[simp] theorem State.modRobot_lines (r : RobotNo) (f : Robot → Robot) : (s.modRobot r f).lines = s.lines := rfl
@[simp] theorem State.modRobot_epoch (r : RobotNo) (f : Robot → Robot) : (s.modRobot r f).epoch = s.epoch := rfl
@[simp] theorem State.modRobot_trunk (r : RobotNo) (f : Robot → Robot) : (s.modRobot r f).trunk = s.trunk := rfl
@[simp] theorem State.modRobot_events (r : RobotNo) (f : Robot → Robot) : (s.modRobot r f).events = s.events := rfl

/-! ### `setSlot` -/

@[simp] theorem State.setSlot_pending (r : RobotNo) (x : SlotState) : (s.setSlot r x).pending = s.pending := rfl
@[simp] theorem State.setSlot_resetLow (r : RobotNo) (x : SlotState) : (s.setSlot r x).resetLow = s.resetLow := rfl
@[simp] theorem State.setSlot_timer (r : RobotNo) (x : SlotState) : (s.setSlot r x).timer = s.timer := rfl
@[simp] theorem State.setSlot_curves (r : RobotNo) (x : SlotState) : (s.setSlot r x).curves = s.curves := rfl
@[simp] theorem State.setSlot_profiles (r : RobotNo) (x : SlotState) : (s.setSlot r x).profiles = s.profiles := rfl
@[simp] theorem State.setSlot_zones (r : RobotNo) (x : SlotState) : (s.setSlot r x).zones = s.zones := rfl
@[simp] theorem State.setSlot_openWave (r : RobotNo) (x : SlotState) : (s.setSlot r x).openWave = s.openWave := rfl
@[simp] theorem State.setSlot_deferred (r : RobotNo) (x : SlotState) : (s.setSlot r x).deferred = s.deferred := rfl
@[simp] theorem State.setSlot_wave (r : RobotNo) (x : SlotState) : (s.setSlot r x).wave = s.wave := rfl
@[simp] theorem State.setSlot_waveCounter (r : RobotNo) (x : SlotState) : (s.setSlot r x).waveCounter = s.waveCounter := rfl
@[simp] theorem State.setSlot_lines (r : RobotNo) (x : SlotState) : (s.setSlot r x).lines = s.lines := rfl
@[simp] theorem State.setSlot_epoch (r : RobotNo) (x : SlotState) : (s.setSlot r x).epoch = s.epoch := rfl
@[simp] theorem State.setSlot_trunk (r : RobotNo) (x : SlotState) : (s.setSlot r x).trunk = s.trunk := rfl
@[simp] theorem State.setSlot_events (r : RobotNo) (x : SlotState) : (s.setSlot r x).events = s.events := rfl

/-! ### `setLast` -/

@[simp] theorem State.setLast_pending (r : RobotNo) (o : Ending) (why : Reason) : (s.setLast r o why).pending = s.pending := rfl
@[simp] theorem State.setLast_resetLow (r : RobotNo) (o : Ending) (why : Reason) : (s.setLast r o why).resetLow = s.resetLow := rfl
@[simp] theorem State.setLast_timer (r : RobotNo) (o : Ending) (why : Reason) : (s.setLast r o why).timer = s.timer := rfl
@[simp] theorem State.setLast_curves (r : RobotNo) (o : Ending) (why : Reason) : (s.setLast r o why).curves = s.curves := rfl
@[simp] theorem State.setLast_profiles (r : RobotNo) (o : Ending) (why : Reason) : (s.setLast r o why).profiles = s.profiles := rfl
@[simp] theorem State.setLast_zones (r : RobotNo) (o : Ending) (why : Reason) : (s.setLast r o why).zones = s.zones := rfl
@[simp] theorem State.setLast_openWave (r : RobotNo) (o : Ending) (why : Reason) : (s.setLast r o why).openWave = s.openWave := rfl
@[simp] theorem State.setLast_deferred (r : RobotNo) (o : Ending) (why : Reason) : (s.setLast r o why).deferred = s.deferred := rfl
@[simp] theorem State.setLast_wave (r : RobotNo) (o : Ending) (why : Reason) : (s.setLast r o why).wave = s.wave := rfl
@[simp] theorem State.setLast_waveCounter (r : RobotNo) (o : Ending) (why : Reason) : (s.setLast r o why).waveCounter = s.waveCounter := rfl
@[simp] theorem State.setLast_lines (r : RobotNo) (o : Ending) (why : Reason) : (s.setLast r o why).lines = s.lines := rfl
@[simp] theorem State.setLast_epoch (r : RobotNo) (o : Ending) (why : Reason) : (s.setLast r o why).epoch = s.epoch := rfl
@[simp] theorem State.setLast_trunk (r : RobotNo) (o : Ending) (why : Reason) : (s.setLast r o why).trunk = s.trunk := rfl
@[simp] theorem State.setLast_events (r : RobotNo) (o : Ending) (why : Reason) : (s.setLast r o why).events = s.events := rfl

/-! ### `setFaultCode` -/

@[simp] theorem State.setFaultCode_pending (r : RobotNo) (f : Byte) : (s.setFaultCode r f).pending = s.pending := rfl
@[simp] theorem State.setFaultCode_resetLow (r : RobotNo) (f : Byte) : (s.setFaultCode r f).resetLow = s.resetLow := rfl
@[simp] theorem State.setFaultCode_timer (r : RobotNo) (f : Byte) : (s.setFaultCode r f).timer = s.timer := rfl
@[simp] theorem State.setFaultCode_curves (r : RobotNo) (f : Byte) : (s.setFaultCode r f).curves = s.curves := rfl
@[simp] theorem State.setFaultCode_profiles (r : RobotNo) (f : Byte) : (s.setFaultCode r f).profiles = s.profiles := rfl
@[simp] theorem State.setFaultCode_zones (r : RobotNo) (f : Byte) : (s.setFaultCode r f).zones = s.zones := rfl
@[simp] theorem State.setFaultCode_openWave (r : RobotNo) (f : Byte) : (s.setFaultCode r f).openWave = s.openWave := rfl
@[simp] theorem State.setFaultCode_deferred (r : RobotNo) (f : Byte) : (s.setFaultCode r f).deferred = s.deferred := rfl
@[simp] theorem State.setFaultCode_wave (r : RobotNo) (f : Byte) : (s.setFaultCode r f).wave = s.wave := rfl
@[simp] theorem State.setFaultCode_waveCounter (r : RobotNo) (f : Byte) : (s.setFaultCode r f).waveCounter = s.waveCounter := rfl
@[simp] theorem State.setFaultCode_lines (r : RobotNo) (f : Byte) : (s.setFaultCode r f).lines = s.lines := rfl
@[simp] theorem State.setFaultCode_epoch (r : RobotNo) (f : Byte) : (s.setFaultCode r f).epoch = s.epoch := rfl
@[simp] theorem State.setFaultCode_trunk (r : RobotNo) (f : Byte) : (s.setFaultCode r f).trunk = s.trunk := rfl
@[simp] theorem State.setFaultCode_events (r : RobotNo) (f : Byte) : (s.setFaultCode r f).events = s.events := rfl

/-! ### `setLine` -/

@[simp] theorem State.setLine_pending (l : LineNo) (e : Line) : (s.setLine l e).pending = s.pending := rfl
@[simp] theorem State.setLine_resetLow (l : LineNo) (e : Line) : (s.setLine l e).resetLow = s.resetLow := rfl
@[simp] theorem State.setLine_timer (l : LineNo) (e : Line) : (s.setLine l e).timer = s.timer := rfl
@[simp] theorem State.setLine_robots (l : LineNo) (e : Line) : (s.setLine l e).robots = s.robots := rfl
@[simp] theorem State.setLine_curves (l : LineNo) (e : Line) : (s.setLine l e).curves = s.curves := rfl
@[simp] theorem State.setLine_profiles (l : LineNo) (e : Line) : (s.setLine l e).profiles = s.profiles := rfl
@[simp] theorem State.setLine_zones (l : LineNo) (e : Line) : (s.setLine l e).zones = s.zones := rfl
@[simp] theorem State.setLine_openWave (l : LineNo) (e : Line) : (s.setLine l e).openWave = s.openWave := rfl
@[simp] theorem State.setLine_deferred (l : LineNo) (e : Line) : (s.setLine l e).deferred = s.deferred := rfl
@[simp] theorem State.setLine_wave (l : LineNo) (e : Line) : (s.setLine l e).wave = s.wave := rfl
@[simp] theorem State.setLine_waveCounter (l : LineNo) (e : Line) : (s.setLine l e).waveCounter = s.waveCounter := rfl
@[simp] theorem State.setLine_epoch (l : LineNo) (e : Line) : (s.setLine l e).epoch = s.epoch := rfl
@[simp] theorem State.setLine_trunk (l : LineNo) (e : Line) : (s.setLine l e).trunk = s.trunk := rfl
@[simp] theorem State.setLine_events (l : LineNo) (e : Line) : (s.setLine l e).events = s.events := rfl

/-! ### `modLine` -/

@[simp] theorem State.modLine_pending (l : LineNo) (f : Line → Line) : (s.modLine l f).pending = s.pending := rfl
@[simp] theorem State.modLine_resetLow (l : LineNo) (f : Line → Line) : (s.modLine l f).resetLow = s.resetLow := rfl
@[simp] theorem State.modLine_timer (l : LineNo) (f : Line → Line) : (s.modLine l f).timer = s.timer := rfl
@[simp] theorem State.modLine_robots (l : LineNo) (f : Line → Line) : (s.modLine l f).robots = s.robots := rfl
@[simp] theorem State.modLine_curves (l : LineNo) (f : Line → Line) : (s.modLine l f).curves = s.curves := rfl
@[simp] theorem State.modLine_profiles (l : LineNo) (f : Line → Line) : (s.modLine l f).profiles = s.profiles := rfl
@[simp] theorem State.modLine_zones (l : LineNo) (f : Line → Line) : (s.modLine l f).zones = s.zones := rfl
@[simp] theorem State.modLine_openWave (l : LineNo) (f : Line → Line) : (s.modLine l f).openWave = s.openWave := rfl
@[simp] theorem State.modLine_deferred (l : LineNo) (f : Line → Line) : (s.modLine l f).deferred = s.deferred := rfl
@[simp] theorem State.modLine_wave (l : LineNo) (f : Line → Line) : (s.modLine l f).wave = s.wave := rfl
@[simp] theorem State.modLine_waveCounter (l : LineNo) (f : Line → Line) : (s.modLine l f).waveCounter = s.waveCounter := rfl
@[simp] theorem State.modLine_epoch (l : LineNo) (f : Line → Line) : (s.modLine l f).epoch = s.epoch := rfl
@[simp] theorem State.modLine_trunk (l : LineNo) (f : Line → Line) : (s.modLine l f).trunk = s.trunk := rfl
@[simp] theorem State.modLine_events (l : LineNo) (f : Line → Line) : (s.modLine l f).events = s.events := rfl

/-! ### `modLines` -/

@[simp] theorem State.modLines_pending (f : Line → Line) : (s.modLines f).pending = s.pending := rfl
@[simp] theorem State.modLines_resetLow (f : Line → Line) : (s.modLines f).resetLow = s.resetLow := rfl
@[simp] theorem State.modLines_timer (f : Line → Line) : (s.modLines f).timer = s.timer := rfl
@[simp] theorem State.modLines_robots (f : Line → Line) : (s.modLines f).robots = s.robots := rfl
@[simp] theorem State.modLines_curves (f : Line → Line) : (s.modLines f).curves = s.curves := rfl
@[simp] theorem State.modLines_profiles (f : Line → Line) : (s.modLines f).profiles = s.profiles := rfl
@[simp] theorem State.modLines_zones (f : Line → Line) : (s.modLines f).zones = s.zones := rfl
@[simp] theorem State.modLines_openWave (f : Line → Line) : (s.modLines f).openWave = s.openWave := rfl
@[simp] theorem State.modLines_deferred (f : Line → Line) : (s.modLines f).deferred = s.deferred := rfl
@[simp] theorem State.modLines_wave (f : Line → Line) : (s.modLines f).wave = s.wave := rfl
@[simp] theorem State.modLines_waveCounter (f : Line → Line) : (s.modLines f).waveCounter = s.waveCounter := rfl
@[simp] theorem State.modLines_epoch (f : Line → Line) : (s.modLines f).epoch = s.epoch := rfl
@[simp] theorem State.modLines_trunk (f : Line → Line) : (s.modLines f).trunk = s.trunk := rfl
@[simp] theorem State.modLines_events (f : Line → Line) : (s.modLines f).events = s.events := rfl

/-! ### `setZone` -/

@[simp] theorem State.setZone_pending (z : ZoneId) (e : Zone) : (s.setZone z e).pending = s.pending := rfl
@[simp] theorem State.setZone_resetLow (z : ZoneId) (e : Zone) : (s.setZone z e).resetLow = s.resetLow := rfl
@[simp] theorem State.setZone_timer (z : ZoneId) (e : Zone) : (s.setZone z e).timer = s.timer := rfl
@[simp] theorem State.setZone_robots (z : ZoneId) (e : Zone) : (s.setZone z e).robots = s.robots := rfl
@[simp] theorem State.setZone_curves (z : ZoneId) (e : Zone) : (s.setZone z e).curves = s.curves := rfl
@[simp] theorem State.setZone_profiles (z : ZoneId) (e : Zone) : (s.setZone z e).profiles = s.profiles := rfl
@[simp] theorem State.setZone_openWave (z : ZoneId) (e : Zone) : (s.setZone z e).openWave = s.openWave := rfl
@[simp] theorem State.setZone_deferred (z : ZoneId) (e : Zone) : (s.setZone z e).deferred = s.deferred := rfl
@[simp] theorem State.setZone_wave (z : ZoneId) (e : Zone) : (s.setZone z e).wave = s.wave := rfl
@[simp] theorem State.setZone_waveCounter (z : ZoneId) (e : Zone) : (s.setZone z e).waveCounter = s.waveCounter := rfl
@[simp] theorem State.setZone_lines (z : ZoneId) (e : Zone) : (s.setZone z e).lines = s.lines := rfl
@[simp] theorem State.setZone_epoch (z : ZoneId) (e : Zone) : (s.setZone z e).epoch = s.epoch := rfl
@[simp] theorem State.setZone_trunk (z : ZoneId) (e : Zone) : (s.setZone z e).trunk = s.trunk := rfl
@[simp] theorem State.setZone_events (z : ZoneId) (e : Zone) : (s.setZone z e).events = s.events := rfl

/-! ### `clock` -/

@[simp] theorem State.clock_pending (t : Time) : (s.clock t).pending = s.pending := rfl
@[simp] theorem State.clock_resetLow (t : Time) : (s.clock t).resetLow = s.resetLow := rfl
@[simp] theorem State.clock_robots (t : Time) : (s.clock t).robots = s.robots := rfl
@[simp] theorem State.clock_curves (t : Time) : (s.clock t).curves = s.curves := rfl
@[simp] theorem State.clock_profiles (t : Time) : (s.clock t).profiles = s.profiles := rfl
@[simp] theorem State.clock_zones (t : Time) : (s.clock t).zones = s.zones := rfl
@[simp] theorem State.clock_openWave (t : Time) : (s.clock t).openWave = s.openWave := rfl
@[simp] theorem State.clock_deferred (t : Time) : (s.clock t).deferred = s.deferred := rfl
@[simp] theorem State.clock_wave (t : Time) : (s.clock t).wave = s.wave := rfl
@[simp] theorem State.clock_waveCounter (t : Time) : (s.clock t).waveCounter = s.waveCounter := rfl
@[simp] theorem State.clock_lines (t : Time) : (s.clock t).lines = s.lines := rfl
@[simp] theorem State.clock_epoch (t : Time) : (s.clock t).epoch = s.epoch := rfl
@[simp] theorem State.clock_trunk (t : Time) : (s.clock t).trunk = s.trunk := rfl
@[simp] theorem State.clock_events (t : Time) : (s.clock t).events = s.events := rfl

/-! ### `raise` -/

@[simp] theorem State.raise_pending (c : EventClass) (d : Half) : (s.raise c d).pending = s.pending := rfl
@[simp] theorem State.raise_resetLow (c : EventClass) (d : Half) : (s.raise c d).resetLow = s.resetLow := rfl
@[simp] theorem State.raise_timer (c : EventClass) (d : Half) : (s.raise c d).timer = s.timer := rfl
@[simp] theorem State.raise_robots (c : EventClass) (d : Half) : (s.raise c d).robots = s.robots := rfl
@[simp] theorem State.raise_curves (c : EventClass) (d : Half) : (s.raise c d).curves = s.curves := rfl
@[simp] theorem State.raise_profiles (c : EventClass) (d : Half) : (s.raise c d).profiles = s.profiles := rfl
@[simp] theorem State.raise_zones (c : EventClass) (d : Half) : (s.raise c d).zones = s.zones := rfl
@[simp] theorem State.raise_openWave (c : EventClass) (d : Half) : (s.raise c d).openWave = s.openWave := rfl
@[simp] theorem State.raise_deferred (c : EventClass) (d : Half) : (s.raise c d).deferred = s.deferred := rfl
@[simp] theorem State.raise_wave (c : EventClass) (d : Half) : (s.raise c d).wave = s.wave := rfl
@[simp] theorem State.raise_waveCounter (c : EventClass) (d : Half) : (s.raise c d).waveCounter = s.waveCounter := rfl
@[simp] theorem State.raise_lines (c : EventClass) (d : Half) : (s.raise c d).lines = s.lines := rfl
@[simp] theorem State.raise_epoch (c : EventClass) (d : Half) : (s.raise c d).epoch = s.epoch := rfl
@[simp] theorem State.raise_trunk (c : EventClass) (d : Half) : (s.raise c d).trunk = s.trunk := rfl

/-! ### `modMember` -/

@[simp] theorem State.modMember_pending (r : RobotNo) (f : Member → Member) : (s.modMember r f).pending = s.pending := by unfold State.modMember; split <;> rfl
@[simp] theorem State.modMember_resetLow (r : RobotNo) (f : Member → Member) : (s.modMember r f).resetLow = s.resetLow := by unfold State.modMember; split <;> rfl
@[simp] theorem State.modMember_timer (r : RobotNo) (f : Member → Member) : (s.modMember r f).timer = s.timer := by unfold State.modMember; split <;> rfl
@[simp] theorem State.modMember_robots (r : RobotNo) (f : Member → Member) : (s.modMember r f).robots = s.robots := by unfold State.modMember; split <;> rfl
@[simp] theorem State.modMember_curves (r : RobotNo) (f : Member → Member) : (s.modMember r f).curves = s.curves := by unfold State.modMember; split <;> rfl
@[simp] theorem State.modMember_profiles (r : RobotNo) (f : Member → Member) : (s.modMember r f).profiles = s.profiles := by unfold State.modMember; split <;> rfl
@[simp] theorem State.modMember_zones (r : RobotNo) (f : Member → Member) : (s.modMember r f).zones = s.zones := by unfold State.modMember; split <;> rfl
@[simp] theorem State.modMember_openWave (r : RobotNo) (f : Member → Member) : (s.modMember r f).openWave = s.openWave := by unfold State.modMember; split <;> rfl
@[simp] theorem State.modMember_deferred (r : RobotNo) (f : Member → Member) : (s.modMember r f).deferred = s.deferred := by unfold State.modMember; split <;> rfl
@[simp] theorem State.modMember_waveCounter (r : RobotNo) (f : Member → Member) : (s.modMember r f).waveCounter = s.waveCounter := by unfold State.modMember; split <;> rfl
@[simp] theorem State.modMember_lines (r : RobotNo) (f : Member → Member) : (s.modMember r f).lines = s.lines := by unfold State.modMember; split <;> rfl
@[simp] theorem State.modMember_epoch (r : RobotNo) (f : Member → Member) : (s.modMember r f).epoch = s.epoch := by unfold State.modMember; split <;> rfl
@[simp] theorem State.modMember_trunk (r : RobotNo) (f : Member → Member) : (s.modMember r f).trunk = s.trunk := by unfold State.modMember; split <;> rfl
@[simp] theorem State.modMember_events (r : RobotNo) (f : Member → Member) : (s.modMember r f).events = s.events := by unfold State.modMember; split <;> rfl

/-! ### `modWave` -/

@[simp] theorem State.modWave_pending (f : Wave → Wave) : (s.modWave f).pending = s.pending := by unfold State.modWave; split <;> rfl
@[simp] theorem State.modWave_resetLow (f : Wave → Wave) : (s.modWave f).resetLow = s.resetLow := by unfold State.modWave; split <;> rfl
@[simp] theorem State.modWave_timer (f : Wave → Wave) : (s.modWave f).timer = s.timer := by unfold State.modWave; split <;> rfl
@[simp] theorem State.modWave_robots (f : Wave → Wave) : (s.modWave f).robots = s.robots := by unfold State.modWave; split <;> rfl
@[simp] theorem State.modWave_curves (f : Wave → Wave) : (s.modWave f).curves = s.curves := by unfold State.modWave; split <;> rfl
@[simp] theorem State.modWave_profiles (f : Wave → Wave) : (s.modWave f).profiles = s.profiles := by unfold State.modWave; split <;> rfl
@[simp] theorem State.modWave_zones (f : Wave → Wave) : (s.modWave f).zones = s.zones := by unfold State.modWave; split <;> rfl
@[simp] theorem State.modWave_openWave (f : Wave → Wave) : (s.modWave f).openWave = s.openWave := by unfold State.modWave; split <;> rfl
@[simp] theorem State.modWave_deferred (f : Wave → Wave) : (s.modWave f).deferred = s.deferred := by unfold State.modWave; split <;> rfl
@[simp] theorem State.modWave_waveCounter (f : Wave → Wave) : (s.modWave f).waveCounter = s.waveCounter := by unfold State.modWave; split <;> rfl
@[simp] theorem State.modWave_lines (f : Wave → Wave) : (s.modWave f).lines = s.lines := by unfold State.modWave; split <;> rfl
@[simp] theorem State.modWave_epoch (f : Wave → Wave) : (s.modWave f).epoch = s.epoch := by unfold State.modWave; split <;> rfl
@[simp] theorem State.modWave_trunk (f : Wave → Wave) : (s.modWave f).trunk = s.trunk := by unfold State.modWave; split <;> rfl
@[simp] theorem State.modWave_events (f : Wave → Wave) : (s.modWave f).events = s.events := by unfold State.modWave; split <;> rfl

/-! ### `setRx` -/

@[simp] theorem State.setRx_pending (x : RxState) : (s.setRx x).pending = s.pending := rfl
@[simp] theorem State.setRx_resetLow (x : RxState) : (s.setRx x).resetLow = s.resetLow := rfl
@[simp] theorem State.setRx_timer (x : RxState) : (s.setRx x).timer = s.timer := rfl
@[simp] theorem State.setRx_robots (x : RxState) : (s.setRx x).robots = s.robots := rfl
@[simp] theorem State.setRx_curves (x : RxState) : (s.setRx x).curves = s.curves := rfl
@[simp] theorem State.setRx_profiles (x : RxState) : (s.setRx x).profiles = s.profiles := rfl
@[simp] theorem State.setRx_zones (x : RxState) : (s.setRx x).zones = s.zones := rfl
@[simp] theorem State.setRx_openWave (x : RxState) : (s.setRx x).openWave = s.openWave := rfl
@[simp] theorem State.setRx_deferred (x : RxState) : (s.setRx x).deferred = s.deferred := rfl
@[simp] theorem State.setRx_wave (x : RxState) : (s.setRx x).wave = s.wave := rfl
@[simp] theorem State.setRx_waveCounter (x : RxState) : (s.setRx x).waveCounter = s.waveCounter := rfl
@[simp] theorem State.setRx_lines (x : RxState) : (s.setRx x).lines = s.lines := rfl
@[simp] theorem State.setRx_epoch (x : RxState) : (s.setRx x).epoch = s.epoch := rfl
@[simp] theorem State.setRx_events (x : RxState) : (s.setRx x).events = s.events := rfl

end Sys2Proof.Machine
end

