-- ==== Sys2Proof/Laws/Tables.lean ====
section
/-!
SUPPORT. Reading a table after a write: tables of fixed size, robot records, lines, zones, event classes; and reading the
bytes of a field back.
-/

namespace Sys2Proof.Machine

/-! ### Tables -/

theorem mapFrom_getElem {α β : Type} (f : Nat → α → β) (i : Nat) (l : List α) (k : Nat) (h : k < l.length)
    (h' : k < (mapFrom f i l).length) : (mapFrom f i l)[k] = f (i + k) l[k] := by
  induction l generalizing i k with
  | nil => simp at h
  | cons a as ih =>
    cases k with
    | zero => simp [mapFrom]
    | succ k =>
      have := ih (i + 1) k (by simpa using h) (by simpa [mapFrom_length] using h)
      simpa [mapFrom, Nat.add_assoc, Nat.add_comm 1 k] using this

/-- An entry of a mapped table. -/
theorem mapTable_getElem {α β : Type} {n : Nat} (f : Nat → α → β) (v : Vector α n) (k : Nat) (h : k < n) :
    (mapTable f v)[k] = f k v[k] := by
  have e : (mapTable f v)[k] = (mapFrom f 0 v.toList)[k]'(by simpa [mapFrom_length] using h) := by simp [mapTable]
  rw [e, mapFrom_getElem _ _ _ _ (by simpa using h)]
  simp

/-- An entry of a mapped table, by a bounded index. -/
@[simp] theorem mapTable_getElem_fin {α β : Type} {n : Nat} (f : Nat → α → β) (v : Vector α n) (k : Fin n) :
    (mapTable f v)[k] = f k.val v[k] := mapTable_getElem f v k.val k.isLt

theorem mem_indicesFrom {α : Type} (p : Nat → α → Bool) (i : Nat) (l : List α) (k : Nat) :
    k ∈ indicesFrom p i l ↔ ∃ j, ∃ h : j < l.length, k = i + j ∧ p k l[j] = true := by
  induction l generalizing i with
  | nil => simp [indicesFrom]
  | cons a as ih =>
    have step : (k ∈ indicesFrom p (i + 1) as) ↔ ∃ j, ∃ h : j < as.length, k = i + (j + 1) ∧ p k as[j] = true := by
      rw [ih]; simp only [Nat.add_assoc, Nat.add_comm 1]
    unfold indicesFrom
    split
    · rename_i hp
      rw [List.mem_cons, step]
      constructor
      · rintro (rfl | ⟨j, h, hk, hj⟩)
        · exact ⟨0, by simp, by simp, by simpa using hp⟩
        · exact ⟨j + 1, by simpa using h, hk, by simpa using hj⟩
      · rintro ⟨j, h, hk, hj⟩
        cases j with
        | zero => exact .inl (by simpa using hk)
        | succ j => exact .inr ⟨j, by simpa using h, hk, by simpa using hj⟩
    · rename_i hp
      rw [step]
      constructor
      · rintro ⟨j, h, hk, hj⟩
        exact ⟨j + 1, by simpa using h, hk, by simpa using hj⟩
      · rintro ⟨j, h, hk, hj⟩
        cases j with
        | zero =>
          simp only [Nat.add_zero] at hk
          subst hk
          simp at hj
          exact absurd hj hp
        | succ j => exact ⟨j, by simpa using h, hk, by simpa using hj⟩

/-! ### Robots, lines, zones -/

variable (s : State)

@[simp] theorem robot_setRobot (r q : RobotNo) (b : Robot) :
    (s.setRobot r b).robot q = if r = q then b else s.robot q := by
  simp [State.robot, State.setRobot, Vector.getElem_set, Fin.ext_iff]

@[simp] theorem robot_modRobot (r q : RobotNo) (f : Robot → Robot) :
    (s.modRobot r f).robot q = if r = q then f (s.robot q) else s.robot q := by
  unfold State.modRobot
  rw [robot_setRobot]
  split
  · rename_i h; rw [h]
  · rfl

@[simp] theorem line_setLine (l k : LineNo) (e : Line) : (s.setLine l e).line k = if l = k then e else s.line k := by
  simp [State.line, State.setLine, Vector.getElem_set, Fin.ext_iff]

@[simp] theorem line_modLine (l k : LineNo) (f : Line → Line) :
    (s.modLine l f).line k = if l = k then f (s.line k) else s.line k := by
  unfold State.modLine
  rw [line_setLine]
  split
  · rename_i h; rw [h]
  · rfl

@[simp] theorem line_modLines (l : LineNo) (f : Line → Line) : (s.modLines f).line l = f (s.line l) := by
  exact mapTable_getElem_fin _ s.lines l

@[simp] theorem zone_setZone (z y : ZoneId) (e : Zone) : (s.setZone z e).zone y = if z = y then e else s.zone y := by
  simp [State.zone, State.setZone, Vector.getElem_set, Fin.ext_iff]

/-- The robot read depends on the robot table alone. -/
theorem robot_congr {s t : State} (h : t.robots = s.robots) (r : RobotNo) : t.robot r = s.robot r := by
  simp [State.robot, h]

/-- The line read depends on the lines alone. -/
theorem line_congr {s t : State} (h : t.lines = s.lines) (l : LineNo) : t.line l = s.line l := by
  simp [State.line, h]

@[simp] theorem Zone.forgetJoin_memberA (e : Zone) (r : RobotNo) : (e.forgetJoin r).memberA = e.memberA := rfl
@[simp] theorem Zone.forgetJoin_memberB (e : Zone) (r : RobotNo) : (e.forgetJoin r).memberB = e.memberB := rfl
@[simp] theorem Zone.forgetJoin_holder (e : Zone) (r : RobotNo) : (e.forgetJoin r).holder = e.holder := rfl

/-- An entry that forgets its newly named robot was newly named by none of that number. -/
@[simp] theorem Zone.forgetJoin_joinedBy (e : Zone) (r : RobotNo) : (e.forgetJoin r).joinedBy r = false := by
  simp [Zone.joinedBy, Zone.forgetJoin]
  exact ⟨fun h _ => h, fun h _ => h⟩

@[simp] theorem zone_forgetJoins (r : RobotNo) (z : ZoneId) : (s.forgetJoins r).zone z = (s.zone z).forgetJoin r :=
  mapTable_getElem_fin ..

@[simp] theorem State.renamed_memberA (e : Zone) (a b : Option RobotNo) : (s.renamed e a b).memberA = a := rfl
@[simp] theorem State.renamed_memberB (e : Zone) (a b : Option RobotNo) : (s.renamed e a b).memberB = b := rfl
@[simp] theorem State.renamed_holder (e : Zone) (a b : Option RobotNo) : (s.renamed e a b).holder = e.holder := rfl

/-- The robots that an entry with new members newly named: those it names that it did not name before and that are in a wave
state, and those it newly named before. -/
theorem State.renamed_joinedBy (e : Zone) (a b : Option RobotNo) (r : RobotNo) :
    (s.renamed e a b).joinedBy r =
      ((s.renamed e a b).names r && if e.names r then e.joinedBy r else (s.robot r).slot.inWave) := by
  have member (x : Option RobotNo) : (decide (x = some r) && x.any (State.renamed.joined s e)) =
      (decide (x = some r) && State.renamed.joined s e r) := by
    cases x with
    | none => simp
    | some q => by_cases h : q = r <;> simp [h]
  show (decide (a = some r) && _ || decide (b = some r) && _) = ((decide (a = some r) || decide (b = some r)) && _)
  rw [Bool.and_or_distrib_right]
  exact congrArg₂ _ (member a) (member b)

/-- The zone read depends on the zone table alone. -/
theorem zone_congr {s t : State} (h : t.zones = s.zones) (z : ZoneId) : t.zone z = s.zone z := by
  simp [State.zone, h]

/-! ### Event classes -/

theorem EventClass.idx_inj {c d : EventClass} (h : c.idx = d.idx) : c = d := by
  cases c <;> cases d <;> first | rfl | (exact absurd h (by decide))

@[simp] theorem Events.get_put (e : Events) (c d : EventClass) (x : EventRec) :
    (e.put c x).get d = if c = d then x else e.get d := by
  unfold Events.get Events.put
  by_cases h : c = d
  · subst h; simp
  · have : c.idx.val ≠ d.idx.val := fun e => h (EventClass.idx_inj (Fin.ext e))
    simp [h, this]

@[simp] theorem Events.put_masks (e : Events) (c : EventClass) (x : EventRec) : (e.put c x).masks = e.masks := rfl

/-! ### Bytes read back -/

/-- A two-byte field read from the bytes it was written as. -/
theorem u16_le16 (h : Half) (rest : List Byte) : u16 (le16 h ++ rest) 0 = h := by
  simp only [u16, u8, le16, List.cons_append, List.nil_append]
  simp only [List.getD_cons_zero, List.getD_cons_succ]
  apply BitVec.eq_of_getLsbD_eq
  intro i hi
  simp only [BitVec.getLsbD_append, BitVec.getLsbD_extractLsb']
  by_cases h8 : i < 8
  · simp [h8]
  · simp [h8, show i - 8 < 8 by omega, show 8 + (i - 8) = i by omega]

/-- A four-byte field read from the bytes it was written as. -/
theorem u32_le32 (w : Word) (rest : List Byte) : u32 (le32 w ++ rest) 0 = w := by
  simp only [u32, u16, u8, le32, List.cons_append, List.nil_append]
  simp only [List.getD_cons_zero, List.getD_cons_succ]
  apply BitVec.eq_of_getLsbD_eq
  intro i hi
  simp only [BitVec.getLsbD_append, BitVec.getLsbD_extractLsb']
  by_cases h16 : i < 16
  · by_cases h8 : i < 8
    · simp [h16, h8]
    · simp [h16, h8, show i - 8 < 8 by omega, show 8 + (i - 8) = i by omega]
  · by_cases h8 : i - 16 < 8
    · simp [h16, h8, show 16 + (i - 16) = i by omega]
    · simp [h16, h8, show i - 16 - 8 < 8 by omega, show 24 + (i - 16 - 8) = i by omega]

/-- Reading past a list that stands before. -/
theorem u8_append_right (a b : List Byte) (o : Nat) : u8 (a ++ b) (a.length + o) = u8 b o := by
  simp [u8, List.getD_eq_getElem?_getD, List.getElem?_append_right]

theorem u16_append_right (a b : List Byte) (o : Nat) : u16 (a ++ b) (a.length + o) = u16 b o := by
  simp [u16, Nat.add_assoc, u8_append_right]

theorem u32_append_right (a b : List Byte) (o : Nat) : u32 (a ++ b) (a.length + o) = u32 b o := by
  simp [u32, Nat.add_assoc, u16_append_right]

@[simp] theorem le16_length (h : Half) : (le16 h).length = 2 := rfl
@[simp] theorem le32_length (w : Word) : (le32 w).length = 4 := rfl

end Sys2Proof.Machine
end

