-- ==== Sys2Proof/Laws/Frame.lean ====
section
/-!
SUPPORT. What the rules that judge and plan never touch, said once for every operation: `Judged s t` holds of every
change the Wave Controller, the Zone Table and the supervision of moves make.
-/

namespace Sys2Proof.Machine

/-- The part of a line that only its engine changes. -/
def Line.core (e : Line) :
    EngineState × Option Txn × Option Residue × Nat × LineCounters × Timing × Nat :=
  (e.state, e.txn, e.residue, e.silence, e.counters, e.timing, e.lastChar)

/-- Classes raised one after another. -/
def Events.raises (e : Events) (xs : List (EventClass × Half)) : Events :=
  xs.foldl (fun e x => e.put x.1 ((e.get x.1).raised x.2)) e

/-- What judging a line outcome, an epoch mark or a commit leaves unchanged: everything but the dynamic fields of the
robots, the holders, the lists and the wave record, and the events by raises alone. -/
structure Judged (s t : State) : Prop where
  pending : t.pending = s.pending
  resetLow : t.resetLow = s.resetLow
  timer : t.timer = s.timer
  curves : t.curves = s.curves
  profiles : t.profiles = s.profiles
  openWave : t.openWave = s.openWave
  epoch : t.epoch = s.epoch
  trunk : t.trunk = s.trunk
  static : ∀ r, (t.robot r).static = (s.robot r).static
  members : ∀ z, (t.zone z).memberA = (s.zone z).memberA ∧ (t.zone z).memberB = (s.zone z).memberB
  core : ∀ l, (t.line l).core = (s.line l).core
  deferred : DeferredOk s.deferred → DeferredOk t.deferred
  events : ∃ xs, t.events = s.events.raises xs

theorem Events.raises_append (e : Events) (xs ys : List (EventClass × Half)) :
    e.raises (xs ++ ys) = (e.raises xs).raises ys := by simp [Events.raises]

@[simp] theorem Events.raises_nil (e : Events) : e.raises [] = e := rfl

theorem Events.raises_masks (e : Events) (xs : List (EventClass × Half)) : (e.raises xs).masks = e.masks := by
  induction xs generalizing e with
  | nil => rfl
  | cons x xs ih => exact (ih _).trans rfl

/-- A raised record is in order when it was before. -/
theorem EventRec.raised_ok (x : EventRec) (d : Half) : (x.raised d).ok := by
  unfold EventRec.raised EventRec.ok
  split
  · simp
  · rename_i h
    split
    · rename_i h'; intro h0; exact absurd h0 h
    · rename_i h'
      intro h0
      exfalso
      apply h'
      have : x.count = 255 := by
        have := h0
        bv_omega
      exact this

/-- Raises keep every class record in order. -/
theorem EventsOk.raises {e : Events} (h : EventsOk e) (xs : List (EventClass × Half)) : EventsOk (e.raises xs) := by
  induction xs generalizing e with
  | nil => exact h
  | cons x xs ih =>
    apply ih
    intro c
    rw [Events.get_put]
    split
    · exact EventRec.raised_ok _ _
    · exact h c

namespace Judged

variable {s t u : State}

theorem refl (s : State) : Judged s s :=
  ⟨rfl, rfl, rfl, rfl, rfl, rfl, rfl, rfl, fun _ => rfl, fun _ => ⟨rfl, rfl⟩, fun _ => rfl, id, ⟨[], rfl⟩⟩

theorem trans (h : Judged s t) (k : Judged t u) : Judged s u where
  pending := k.pending.trans h.pending
  resetLow := k.resetLow.trans h.resetLow
  timer := k.timer.trans h.timer
  curves := k.curves.trans h.curves
  profiles := k.profiles.trans h.profiles
  openWave := k.openWave.trans h.openWave
  epoch := k.epoch.trans h.epoch
  trunk := k.trunk.trans h.trunk
  static r := (k.static r).trans (h.static r)
  members z := ⟨(k.members z).1.trans (h.members z).1, (k.members z).2.trans (h.members z).2⟩
  core l := (k.core l).trans (h.core l)
  deferred := k.deferred ∘ h.deferred
  events := by
    obtain ⟨xs, hx⟩ := h.events
    obtain ⟨ys, hy⟩ := k.events
    exact ⟨xs ++ ys, by rw [hy, hx, Events.raises_append]⟩

theorem foldl {α : Type} (f : State → α → State) (hf : ∀ s x, Judged s (f s x)) (xs : List α) (s : State) :
    Judged s (xs.foldl f s) := by
  induction xs generalizing s with
  | nil => exact refl s
  | cons x xs ih => exact (hf s x).trans (ih _)

theorem ite {p : Prop} [Decidable p] {a b : State} (ha : Judged s a) (hb : Judged s b) :
    Judged s (if p then a else b) := by split <;> assumption

theorem modRobot (r : RobotNo) (f : Robot → Robot) (hf : ∀ b, (f b).static = b.static) :
    Judged s (s.modRobot r f) :=
  { refl s with
    static := fun q => by
      rw [robot_modRobot]
      split
      · exact hf _
      · rfl }

theorem modLine (l : LineNo) (f : Line → Line) (hf : ∀ e, (f e).core = e.core) : Judged s (s.modLine l f) :=
  { refl s with
    core := fun k => by
      rw [line_modLine]
      split
      · exact hf _
      · rfl }

theorem modLines (f : Line → Line) (hf : ∀ e, (f e).core = e.core) : Judged s (s.modLines f) :=
  { refl s with core := fun k => by rw [line_modLines]; exact hf _ }

theorem wave (w : Option Wave) (n : Half) : Judged s { s with wave := w, waveCounter := n } := { refl s with }

theorem modMember (r : RobotNo) (f : Member → Member) : Judged s (s.modMember r f) := by
  unfold State.modMember
  split
  · exact refl s
  · exact { refl s with }

theorem modWave (f : Wave → Wave) : Judged s (s.modWave f) := by
  unfold State.modWave
  split
  · exact refl s
  · exact { refl s with }

theorem raise (c : EventClass) (d : Half) : Judged s (s.raise c d) := { refl s with events := ⟨[(c, d)], rfl⟩ }

theorem zones (v : Vector Zone 1024)
    (h : ∀ z : ZoneId, v[z].memberA = s.zones[z].memberA ∧ v[z].memberB = s.zones[z].memberB) :
    Judged s { s with zones := v } := { refl s with members := h }

theorem setSlot (r : RobotNo) (x : SlotState) : Judged s (s.setSlot r x) := modRobot r _ fun _ => rfl
theorem setLast (r : RobotNo) (o : Ending) (why : Reason) : Judged s (s.setLast r o why) := modRobot r _ fun _ => rfl
theorem setFaultCode (r : RobotNo) (f : Byte) : Judged s (s.setFaultCode r f) := modRobot r _ fun _ => rfl
theorem storeStatus (r : RobotNo) (f : Byte) (p : Pair) : Judged s (s.storeStatus r f p) := modRobot r _ fun _ => rfl
theorem setDelivery (r : RobotNo) (d : Delivery) : Judged s (s.setDelivery r d) := modMember r _

/-! ### Zones -/

theorem raiseEach (c : EventClass) (ds : List Nat) : Judged s (State.raiseEach s c ds) :=
  foldl _ (fun _ _ => raise _ _) ds s

theorem settleWith (ms : List Member) (sel : Nat → Zone → Bool) : Judged s (s.settleWith ms sel) := by
  unfold State.settleWith
  refine (zones _ fun z => ?_).trans (raiseEach _ _)
  rw [mapTable_getElem_fin]
  unfold State.settled
  split
  · split <;> exact ⟨rfl, rfl⟩
  · exact ⟨rfl, rfl⟩

theorem settle (sel : Nat → Zone → Bool) : Judged s (s.settle sel) := settleWith _ _

theorem settleNaming (r : RobotNo) : Judged s (s.settleNaming r) := settle _

theorem blockHeld (r : RobotNo) : Judged s (s.blockHeld r) := by
  unfold State.blockHeld
  refine zones _ fun z => ?_
  rw [mapTable_getElem_fin]
  split <;> exact ⟨rfl, rfl⟩

theorem becomeUncertain (r : RobotNo) : Judged s (s.becomeUncertain r) :=
  ((modRobot r (fun b => { b with slot := .uncertain, believed := Position.zero }) fun _ => rfl).trans
    (blockHeld r)).trans (settleNaming r)

theorem forgetJoins (r : RobotNo) : Judged s (s.forgetJoins r) := { refl s with members := fun z => by simp }

theorem setHolder (z : ZoneId) (x : Holder) : Judged s (s.setZone z { s.zone z with holder := x }) :=
  { refl s with
    members := fun y => by
      rw [zone_setZone]
      split
      · rename_i h; subst h; exact ⟨rfl, rfl⟩
      · exact ⟨rfl, rfl⟩ }

theorem takeZones (r : RobotNo) (zs : List ZoneId) : Judged s (s.takeZones r zs) :=
  foldl _ (fun _ _ => setHolder _ _) zs s

/-! ### Work for a line -/

theorem offerHalt (r : RobotNo) : Judged s (s.offerHalt r) := modLine _ _ fun e => by split <;> rfl
theorem offerClear (r : RobotNo) : Judged s (s.offerClear r) := modLine _ _ fun e => by split <;> rfl
theorem offerRead (r : RobotNo) (a b : Bool) : Judged s (s.offerRead r a b) :=
  modLine _ _ fun e => by split <;> rfl
theorem offerDeliver (r : RobotNo) : Judged s (s.offerDeliver r) := modLine _ _ fun e => by split <;> rfl
theorem removeDeliver (r : RobotNo) : Judged s (s.removeDeliver r) := modLine _ _ fun _ => rfl
theorem removeRead (r : RobotNo) : Judged s (s.removeRead r) := modLine _ _ fun _ => rfl
theorem offerHaltAll (l : LineNo) : Judged s (s.offerHaltAll l) := modLine _ _ fun e => by split <;> rfl
theorem offerGo (l : LineNo) (g : GoFlag) : Judged s (s.offerGo l g) := modLine _ _ fun e => by split <;> rfl
theorem joinCycle (l : LineNo) (r : RobotNo) (due : Nat) : Judged s (s.joinCycle l r due) :=
  modLine _ _ fun e => by split <;> rfl
theorem nextPoll (l : LineNo) (r : RobotNo) (due : Nat) : Judged s (s.nextPoll l r due) := modLine _ _ fun _ => rfl
theorem leaveCycle (r : RobotNo) : Judged s (s.leaveCycle r) := modLine _ _ fun _ => rfl
theorem leaveLists (r : RobotNo) : Judged s (s.leaveLists r) := modLine _ _ fun _ => rfl

/-! ### The commit -/

theorem admitCandidate (run : CommitRun) (m : MoveRecord) (p : Plan) : Judged s (admitCandidate s run m p).1 := by
  unfold Machine.admitCandidate
  dsimp only
  have arming := ((takeZones (s := s) m.robot (neededZones (s.robot m.robot).static.links m.what.kind p)).trans
    (modRobot m.robot (fun b => { b with rest := (newMember s m p).rest, slot := .arming }) fun _ => rfl)).trans
    (offerDeliver m.robot)
  split
  · exact (arming.trans (forgetJoins _)).trans (settleWith _ _)
  · exact arming

theorem dropCandidate (run : CommitRun) (m : MoveRecord) (why : Reason) : Judged s (dropCandidate s run m why).1 :=
  setLast _ _ _

theorem nullCandidate (run : CommitRun) (m : MoveRecord) : Judged s (nullCandidate s run m).1 := by
  unfold Machine.nullCandidate
  dsimp only
  split
  · exact (modRobot m.robot (fun b => { b with stack := b.stack.tail }) fun _ => rfl).trans (setLast _ _ _)
  · exact setLast _ _ _

theorem deferCandidate (run : CommitRun) (c : Candidate) : Judged s (deferCandidate s run c).1 := by
  unfold Machine.deferCandidate
  dsimp only
  split
  · exact (raise _ _).trans (dropCandidate _ _ _)
  · rename_i hc
    split
    · exact (raise _ _).trans (dropCandidate _ _ _)
    · rename_i hl
      refine Judged.trans ?_ (setLast _ _ _)
      refine { refl s with deferred := fun h => ⟨?_, ?_⟩ }
      · simp only [List.length_append, List.length_singleton]; omega
      · intro x hx
        rcases List.mem_append.1 hx with hx | hx
        · exact h.2 x hx
        · rw [List.mem_singleton.1 hx]
          simp only [Config.expiry] at hc
          exact ⟨Nat.succ_le_succ (Nat.zero_le _), by show c.count + 1 ≤ 7; omega⟩

theorem examine (acc : State × CommitRun) (c : Candidate) : Judged acc.1 (examine acc c).1 := by
  unfold Machine.examine
  dsimp only
  split
  · exact dropCandidate _ _ _
  · exact nullCandidate _ _
  · exact deferCandidate _ _
  · exact admitCandidate _ _ _

theorem examineAll (cs : List Candidate) (acc : State × CommitRun) :
    Judged acc.1 (cs.foldl Machine.examine acc).1 := by
  induction cs generalizing acc with
  | nil => exact refl _
  | cons c cs ih => exact (examine acc c).trans (ih _)

theorem createWave (o : CommitOrder) (run : CommitRun) : Judged s (createWave s o run) := by
  unfold Machine.createWave
  split
  · exact refl s
  · exact { refl s with }

theorem commitCandidates (cs : List Candidate) (o : CommitOrder) : Judged s (commitCandidates s cs o).1 :=
  (examineAll cs (s, { members := [], counts := ⟨0, 0, 0, 0⟩ })).trans (createWave _ _)

theorem emptyDeferred : Judged s { s with deferred := [] } :=
  { refl s with deferred := fun _ => ⟨Nat.zero_le _, by simp⟩ }

theorem chainCommit (w : Wave) : Judged s (chainCommit s w) := by
  unfold Machine.chainCommit
  dsimp only
  have commit := Judged.trans (emptyDeferred (s := s)) (commitCandidates (chainCandidates s)
    ⟨.chain, w.chainLead, w.chainRemaining - 1, w.chainLead⟩)
  split
  · exact commit.trans ((modWave _).trans (raise _ _))
  · exact commit

theorem waveDone (w : Wave) : Judged s (waveDone s w) := by
  unfold Machine.waveDone
  dsimp only
  have done := (modWave (s := s) fun w => { w with state := .done }).trans (raise .waveDone w.number)
  split
  · exact done
  · split
    · exact done.trans (modWave _)
    · exact done.trans (chainCommit _)

theorem doneTest : Judged s (doneTest s) := by
  unfold Machine.doneTest
  split
  · exact refl s
  · split
    · exact waveDone _
    · exact refl s

theorem armTest : Judged s (armTest s) := by
  unfold Machine.armTest
  split
  · exact refl s
  · split
    · exact modWave _
    · exact refl s

/-! ### Deciding a member -/

theorem conclude (r : RobotNo) (o : Ending) (why : Reason) : Judged s (s.conclude r o why) :=
  ((modMember r _).trans (setLast _ _ _)).trans (leaveCycle _)

theorem concludeAtRest (r : RobotNo) (o : Ending) (why : Reason) : Judged s (s.concludeAtRest r o why) := by
  unfold State.concludeAtRest
  dsimp only
  refine (conclude r o why).trans ?_
  split
  · exact (setSlot _ _).trans (settleNaming _)
  · exact becomeUncertain _

theorem concludeUncertain (r : RobotNo) (o : Ending) (why : Reason) : Judged s (s.concludeUncertain r o why) :=
  (conclude r o why).trans (becomeUncertain r)

theorem concludeLost (r : RobotNo) (why : Reason) : Judged s (s.concludeLost r why) :=
  (concludeUncertain _ _ _).trans (raise _ _)

theorem concludeStalled (r : RobotNo) (why : Reason) : Judged s (s.concludeStalled r why) :=
  (concludeUncertain _ _ _).trans (raise _ _)

theorem arrive (m : Member) : Judged s (s.arrive m) := by
  unfold State.arrive
  dsimp only
  exact ((modRobot m.robot (fun b =>
    { b with believed := m.plan.target, stack := stackAfter m b.stack, slot := .idle }) fun _ => rfl).trans
      (conclude m.robot .arrived .none)).trans (settleNaming _)

theorem stopMember (r : RobotNo) (ph : StopPhase) : Judged s (s.stopMember r ph) :=
  ((setSlot _ _).trans (leaveCycle _)).trans (modMember _ _)

theorem missListed (r : RobotNo) : Judged s (s.missListed r) :=
  ((removeDeliver _).trans (setDelivery _ _)).trans (concludeAtRest _ _ _)

theorem goOnLine (n : Half) (l : LineNo) : Judged s (State.goOnLine n s l) := ite (offerGo _ _) (refl s)

theorem startWave (w : Wave) : Judged s (startWave s w) := by
  unfold Machine.startWave
  dsimp only
  refine Judged.trans ?_ doneTest
  split
  · exact ((modWave _).trans (foldl _ (fun _ _ => missListed _) _ _)).trans
      ((foldl _ (fun _ _ => modMember _ _) _ _).trans (foldl _ (fun _ _ => goOnLine _ _) _ _))
  · exact (((modWave _).trans (foldl _ (fun _ _ => missListed _) _ _)).trans
      ((foldl _ (fun _ _ => modMember _ _) _ _).trans (foldl _ (fun _ _ => goOnLine _ _) _ _))).trans (raise _ _)

theorem waveMark : Judged s (waveMark s) := by
  unfold Machine.waveMark
  split
  · exact refl s
  · exact ite (startWave _) (refl s)

theorem haltLine (l : LineNo) : Judged s (s.haltLine l) := ite (offerHaltAll _) (refl s)

theorem abortMember (r : RobotNo) : Judged s (s.abortMember r) := (stopMember _ _).trans (offerRead _ _ _)

theorem abortWave : Judged s (abortWave s).1 := by
  have aborting := (modWave (s := s) fun w => { w with state := .aborting, chainRemaining := 0 }).trans
    (modLines (fun e => { e with goPending := none }) fun _ => rfl)
  have missed := aborting.trans (foldl State.missListed (fun _ _ => missListed _) (s.memberRobots Member.isListed) _)
  have halted := missed.trans (foldl State.haltLine (fun _ _ => haltLine _) allLines _)
  exact halted.trans (foldl State.abortMember (fun _ _ => abortMember _) _ _)

/-! ### The ends of transactions -/

theorem removeAbortRead (m : Member) : Judged s (s.removeAbortRead m) := ite (refl s) (removeRead _)

theorem beginClear (m : Member) (b : Bool) : Judged s (s.beginClear m b) :=
  (((setSlot _ _).trans (modMember _ _)).trans (removeAbortRead _)).trans (offerClear _)

theorem judgeDeliver (m : Member) (en : TxnEnd) : Judged s (judgeDeliver s m en) := by
  cases en with
  | accepted => exact ite (beginClear _ _) (ite ((setDelivery _ _).trans (setSlot _ _)) (setDelivery _ _))
  | refused f =>
    exact (((setFaultCode _ _).trans (removeAbortRead _)).trans (setDelivery _ _)).trans (concludeAtRest _ _ _)
  | failed b => exact beginClear _ _
  | polled => exact refl s
  | statused => exact refl s

theorem judgeClear (m : Member) (en : TxnEnd) : Judged s (judgeClear s m en) := by
  cases en with
  | accepted => exact (setDelivery _ _).trans (concludeAtRest _ _ _)
  | refused f => exact ((setFaultCode _ _).trans (modMember _ _)).trans (offerHalt _)
  | failed b => exact (setDelivery _ _).trans (concludeLost _ _)
  | polled => exact refl s
  | statused => exact refl s

theorem judgeReadBackClear (m : Member) (en : TxnEnd) : Judged s (judgeReadBackClear s m en) := by
  cases en with
  | accepted => exact concludeAtRest _ _ _
  | refused f => exact (setFaultCode _ _).trans (concludeUncertain _ _ _)
  | failed b => exact concludeLost _ _
  | polled => exact refl s
  | statused => exact refl s

theorem concludeFound (m : Member) (p : Pair) : Judged s (concludeFound s m p) :=
  ite (concludeAtRest _ _ _) (ite (arrive _) (concludeUncertain _ _ _))

theorem judgeAtRest (m : Member) (p : Pair) : Judged s (judgeAtRest s m p) :=
  (concludeFound m p).trans (leaveLists _)

theorem judgeReadBack (m : Member) (round : Nat) (code : Byte) (posOk : Bool) (p : Pair) :
    Judged s (judgeReadBack s m round code posOk p) := by
  unfold Machine.judgeReadBack
  split
  · exact judgeAtRest _ _
  · exact (modMember _ _).trans (offerClear _)
  · exact ite (judgeAtRest _ _) (concludeStalled _ _)
  · exact concludeStalled _ _
  · exact concludeStalled _ _
  · exact ite ((modMember _ _).trans (offerHalt _)) (concludeUncertain _ _ _)

theorem judgeRefresh (r : RobotNo) (code : Byte) (p : Pair) : Judged s (judgeRefresh s r code p) := by
  unfold Machine.judgeRefresh
  dsimp only
  exact ite (((setLast _ _ _).trans (becomeUncertain _)).trans (raise _ _)) (refl s)

theorem judgeRead (r : RobotNo) (refresh readBack : Bool) (en : TxnEnd) :
    Judged s (judgeRead s r refresh readBack en) := by
  cases en with
  | statused code posOk fault p =>
    unfold Machine.judgeRead
    dsimp only
    refine (storeStatus r fault p).trans ?_
    split
    · split
      · exact judgeReadBack _ _ _ _ _
      · exact ite (judgeRefresh _ _ _) (refl _)
    · exact ite (judgeRefresh _ _ _) (refl _)
  | failed b =>
    unfold Machine.judgeRead
    dsimp only
    split
    · split
      · exact concludeLost _ _
      · exact refl s
    · exact refl s
  | accepted => exact refl s
  | refused => exact refl s
  | polled => exact refl s

theorem judgePollAnswer (m : Member) (n : Half) (code : Byte) (posOk : Bool) (fault : Byte) (wave remaining : Half) :
    Judged s (judgePollAnswer s m n code posOk fault wave remaining) := by
  have hs : ∀ (s : State) (why : Reason), Judged s (judgePollStall s m fault why) :=
    fun s why => (setFaultCode _ _).trans (concludeStalled _ _)
  have hm : ∀ s : State, Judged s (judgePollMoving s m remaining) := fun s => (modMember _ _).trans (nextPoll _ _ _)
  unfold Machine.judgePollAnswer
  refine ite (((stopMember _ _).trans (modMember _ _)).trans (offerClear _)) (ite (hs _ _) ?_)
  split
  · exact hm _
  · exact hm _
  · exact ite (arrive _) (hs _ _)
  · exact hs _ _
  · exact hs _ _
  · exact hs _ _

theorem judgePoll (r : RobotNo) (en : TxnEnd) : Judged s (judgePoll s r en) := by
  unfold Machine.judgePoll
  split
  · refine ite ?_ (refl s)
    split
    · exact judgePollAnswer _ _ _ _ _ _ _
    · exact concludeLost _ _
    · exact refl s
    · exact refl s
    · exact refl s
  · exact refl s

theorem startMember (l : LineNo) (m : Member) : Judged s (s.startMember l m) :=
  ((setSlot _ _).trans (modMember _ _)).trans (joinCycle _ _ _)

theorem judgeEnd (l : LineNo) (kind : TxnKind) (stale : Bool) (en : TxnEnd) : Judged s (judgeEnd s l kind stale en) := by
  cases kind with
  | deliver r =>
    refine ite (refl s) ?_
    unfold Machine.endDeliver
    split
    · exact refl s
    · exact ite (((judgeDeliver _ _).trans armTest).trans doneTest) (refl s)
  | read r a b => exact ite (refl s) ((judgeRead _ _ _ _).trans doneTest)
  | clear r =>
    refine ite (refl s) ?_
    unfold Machine.endClear
    split
    · exact refl s
    · exact ite (((judgeClear _ _).trans armTest).trans doneTest)
        (ite (((judgeReadBackClear _ _).trans armTest).trans doneTest) (refl s))
  | haltSingle r =>
    refine ite (refl s) ?_
    unfold Machine.endHalt
    split
    · exact refl s
    · split
      · exact ((concludeUncertain _ _ _).trans (raise _ _)).trans doneTest
      · exact (modMember _ _).trans (offerRead _ _ _)
      · exact refl s
      · exact refl s
      · exact refl s
  | poll r => exact ite (refl s) ((judgePoll _ _).trans doneTest)
  | go g => exact foldl _ (fun _ _ => startMember _ _) _ _
  | haltAll => exact refl s

theorem loseMembers (l : LineNo) : Judged s (loseMembers s l) :=
  ((foldl _ (fun _ _ => (modMember _ _).trans (concludeUncertain _ _ _)) _ _).trans armTest).trans doneTest

theorem overrunExpired (r : RobotNo) : Judged s (overrunExpired s r) := by
  unfold Machine.overrunExpired
  split
  · exact refl s
  · split
    · exact refl s
    · exact ite ((stopMember _ _).trans (offerHalt _)) (refl s)

theorem resetFailures (ks : List (TxnKind × Bool)) (l : LineNo) (c : Bool) :
    Judged s (ks.foldl (fun s k => Machine.judgeEnd s l k.1 k.2 (.failed c)) s) :=
  foldl _ (fun _ _ => judgeEnd _ _ _ _) ks s

end Judged

end Sys2Proof.Machine
end

