-- ==== Sys2Proof/Laws/Completion.lean ====
section
/-!
SUPPORT. What the completion test can do, said once: `doneTest` leads from any state to one that `Completes` describes. On the
way, what a commit of candidates changes (`Committed`) and how it disposes of them (`Disposal`).
-/

namespace Sys2Proof.Machine

/-- What a commit with candidates of robots `rs` may change from `s` to `t`: those robots, the holders, the normal lists, the deferred
list, and the classes DEFER_DROP and ZONE_CONFLICT. An ARMING robot stays ARMING. -/
structure Committed (rs : List RobotNo) (s t : State) : Prop where
  frame : t = { s with robots := t.robots, zones := t.zones, lines := t.lines, deferred := t.deferred, events := t.events }
  lines : ∀ l, t.line l = { s.line l with normal := (t.line l).normal }
  robots : ∀ q, q ∉ rs → t.robot q = s.robot q
  arming : ∀ q, (s.robot q).slot = .arming → (t.robot q).slot = .arming
  zones : ∀ z, (t.zone z).memberA = (s.zone z).memberA ∧ (t.zone z).memberB = (s.zone z).memberB
  events : ∀ c, c ≠ .deferDrop → c ≠ .zoneConflict → t.events.get c = s.events.get c
  masks : t.events.masks = s.events.masks

namespace Committed

variable {s t u : State} {rs qs : List RobotNo}

theorem refl (s : State) : Committed rs s s :=
  ⟨rfl, fun _ => rfl, fun _ _ => rfl, fun _ => id, fun _ => ⟨rfl, rfl⟩, fun _ _ _ => rfl, rfl⟩

theorem trans (h : Committed rs s t) (k : Committed rs t u) : Committed rs s u where
  frame := by
    have e := k.frame
    rw [h.frame] at e
    exact e
  lines l := by rw [k.lines l, h.lines l]
  robots r hr := (k.robots r hr).trans (h.robots r hr)
  arming r hr := k.arming r (h.arming r hr)
  zones z := ⟨(k.zones z).1.trans (h.zones z).1, (k.zones z).2.trans (h.zones z).2⟩
  events c h1 h2 := (k.events c h1 h2).trans (h.events c h1 h2)
  masks := k.masks.trans h.masks

theorem mono (h : Committed rs s t) (hq : ∀ r ∈ rs, r ∈ qs) : Committed qs s t :=
  { h with robots := fun r hr => h.robots r fun hp => hr (hq r hp) }

theorem foldl {α : Type} (f : State → α → State) (hf : ∀ s x, Committed rs s (f s x)) (xs : List α) (s : State) :
    Committed rs s (xs.foldl f s) := by
  induction xs generalizing s with
  | nil => exact refl s
  | cons x xs ih => exact (hf s x).trans (ih _)

theorem modRobot {r : RobotNo} (hr : r ∈ rs) (f : Robot → Robot) (hf : ∀ b, b.slot = .arming → (f b).slot = .arming) :
    Committed rs s (s.modRobot r f) :=
  { refl (rs := rs) s with
    frame := rfl
    robots := fun k hk => by
      rw [robot_modRobot, if_neg]
      rintro rfl
      exact hk hr
    arming := fun k hk => by
      rw [robot_modRobot]
      split
      · exact hf _ hk
      · exact hk }

theorem setLast {r : RobotNo} (hr : r ∈ rs) (o : Ending) (why : Reason) : Committed rs s (s.setLast r o why) :=
  modRobot hr _ fun _ => id

theorem raise {c : EventClass} (hc : c = .deferDrop ∨ c = .zoneConflict) (d : Half) : Committed rs s (s.raise c d) :=
  { refl (rs := rs) s with
    frame := rfl
    events := fun k h1 h2 => by
      show (s.events.put c _).get k = _
      rw [Events.get_put, if_neg]
      rintro rfl
      rcases hc with h | h
      · exact h1 h
      · exact h2 h }

theorem offerDeliver (r : RobotNo) : Committed rs s (s.offerDeliver r) :=
  { refl (rs := rs) s with
    frame := rfl
    lines := fun k => by
      show (s.modLine _ _).line k = _
      rw [State.offerDeliver, line_modLine]
      split
      · split <;> rfl
      · rfl }

theorem setHolder (z : ZoneId) (x : Holder) : Committed rs s (s.setZone z { s.zone z with holder := x }) :=
  { refl (rs := rs) s with
    frame := rfl
    zones := fun y => by
      rw [zone_setZone]
      split
      · rename_i h; rw [← h]; exact ⟨rfl, rfl⟩
      · exact ⟨rfl, rfl⟩ }

theorem forgetJoins (r : RobotNo) : Committed rs s (s.forgetJoins r) :=
  { refl (rs := rs) s with frame := rfl, zones := fun z => by simp }

theorem settleWith (ms : List Member) (sel : Nat → Zone → Bool) : Committed rs s (s.settleWith ms sel) := by
  unfold State.settleWith
  refine trans (t := { s with zones := mapTable (fun z e => if sel z e then s.settled ms z e else e) s.zones }) ?_
    (foldl _ (fun _ _ => raise (.inr rfl) _) _ _)
  refine { refl (rs := rs) s with frame := rfl, zones := fun z => ?_ }
  simp only [State.zone]
  rw [mapTable_getElem_fin]
  unfold State.settled
  split
  · split <;> exact ⟨rfl, rfl⟩
  · exact ⟨rfl, rfl⟩

theorem deferred (ds : List Deferral) : Committed rs s { s with deferred := ds } := { refl (rs := rs) s with frame := rfl }

end Committed

/-- Settling zones leaves the deferred list. -/
theorem State.settleWith_deferred (s : State) (ms : List Member) (sel : Nat → Zone → Bool) :
    (s.settleWith ms sel).deferred = s.deferred := by
  have raises : ∀ (ds : List Nat) (s : State) (c : EventClass), (State.raiseEach s c ds).deferred = s.deferred := by
    intro ds
    induction ds with
    | nil => intro s c; rfl
    | cons d ds ih => intro s c; exact ih _ c
  exact raises _ _ _

/-- How a commit disposes of candidates `cs`: what it has added to the deferred list and the members, with the counts. -/
structure Disposal (a b : State × CommitRun) (cs : List Candidate) (ds : List Deferral) (ms : List Member) : Prop where
  deferred : b.1.deferred = a.1.deferred ++ ds
  members : b.2.members = a.2.members ++ ms
  fromList : (ds.map fun d => (d.record, d.count)).Sublist (cs.map fun c => (c.record, c.count + 1))
  robots : (ms.map Member.robot).Sublist (cs.map fun c => c.record.robot)
  fresh : ∀ q ∈ ms, q.delivery = .listed ∧ q.outcome = .none ∧ (b.1.robot q.robot).slot = .arming
  admitted : b.2.counts.admitted = a.2.counts.admitted + ms.length
  counted : b.2.counts.deferred = a.2.counts.deferred + ds.length
  total : b.2.counts.admitted + b.2.counts.deferred + b.2.counts.dropped + b.2.counts.null =
    a.2.counts.admitted + a.2.counts.deferred + a.2.counts.dropped + a.2.counts.null + cs.length

/-- A drop disposes of its candidate with nothing deferred and nothing admitted. -/
theorem dropCandidate_disposes (s s' : State) (run : CommitRun) (c : Candidate) (why : Reason) (h : s'.deferred = s.deferred) :
    Disposal (s, run) (dropCandidate s' run c.record why) [c] [] [] where
  deferred := by simp [dropCandidate, h]
  members := by simp [dropCandidate]
  fromList := by simp
  robots := by simp
  fresh := by simp
  admitted := rfl
  counted := rfl
  total := by simp only [dropCandidate, List.length_singleton]; omega

/-- One candidate examined: the change of the part, and its disposal. -/
theorem examine_commits (a : State × CommitRun) (c : Candidate) :
    Committed [c.record.robot] a.1 (examine a c).1 ∧ ∃ ds ms, Disposal a (examine a c) [c] ds ms := by
  obtain ⟨s, run⟩ := a
  unfold examine
  dsimp only
  split
  · exact ⟨.setLast (List.mem_singleton_self _) _ _, [], [], dropCandidate_disposes s s run c _ rfl⟩
  · unfold nullCandidate
    dsimp only
    constructor
    · split
      · exact (Committed.modRobot (List.mem_singleton_self _) (fun b => { b with stack := b.stack.tail }) fun _ => id).trans (.setLast (List.mem_singleton_self _) _ _)
      · exact .setLast (List.mem_singleton_self _) _ _
    · refine ⟨[], [], ⟨by split <;> simp, by simp, by simp, by simp, by simp, rfl, rfl, ?_⟩⟩
      simp only [List.length_singleton]; omega
  · unfold deferCandidate
    dsimp only
    split
    · exact ⟨(Committed.raise (.inl rfl) _).trans (.setLast (List.mem_singleton_self _) _ _), [], [], dropCandidate_disposes s _ run c _ rfl⟩
    · split
      · exact ⟨(Committed.raise (.inl rfl) _).trans (.setLast (List.mem_singleton_self _) _ _), [], [], dropCandidate_disposes s _ run c _ rfl⟩
      · refine ⟨(Committed.deferred _).trans (.setLast (List.mem_singleton_self _) _ _), [⟨c.record, c.count + 1⟩], [], ?_⟩
        refine ⟨by simp, by simp, by simp, by simp, by simp, rfl, rfl, ?_⟩
        simp only [List.length_singleton]; omega
  · rename_i p _
    unfold admitCandidate
    dsimp only
    have taken : Committed [c.record.robot] s
        (((s.takeZones c.record.robot (neededZones (s.robot c.record.robot).static.links c.record.what.kind p)).modRobot
          c.record.robot fun b => { b with rest := (newMember s c.record p).rest, slot := .arming }).offerDeliver
          c.record.robot) :=
      ((Committed.foldl (rs := [c.record.robot]) _ (fun _ _ => .setHolder _ _) _ s).trans
        (.modRobot (List.mem_singleton_self _) _ fun _ _ => rfl)).trans (.offerDeliver _)
    have slot : ((((s.takeZones c.record.robot (neededZones (s.robot c.record.robot).static.links c.record.what.kind p)).modRobot
          c.record.robot fun b => { b with rest := (newMember s c.record p).rest, slot := .arming }).offerDeliver
          c.record.robot).robot c.record.robot).slot = .arming := by
      have listed : ∀ (s : State) (r q : RobotNo), (s.offerDeliver r).robot q = s.robot q := fun _ _ _ => rfl
      rw [listed, robot_modRobot, if_pos rfl]
    have zoneDeferred : ∀ (zs : List ZoneId) (s : State) (r : RobotNo), (s.takeZones r zs).deferred = s.deferred := by
      intro zs
      induction zs with
      | nil => intro s r; rfl
      | cons z zs ih => intro s r; exact (ih _ r)
    constructor
    · split
      · exact (taken.trans (.forgetJoins _)).trans (.settleWith _ _)
      · exact taken
    · refine ⟨[], [newMember s c.record p], ⟨?_, rfl, by simp, by simp [newMember], ?_, rfl, rfl, ?_⟩⟩
      · split
        · rw [State.settleWith_deferred]
          exact (zoneDeferred _ s _).trans (by simp)
        · exact (zoneDeferred _ s _).trans (by simp)
      · intro q hq
        rw [List.mem_singleton.1 hq]
        refine ⟨rfl, rfl, ?_⟩
        split
        · exact ((Committed.forgetJoins (rs := []) _).trans (.settleWith _ _)).arming _ slot
        · exact slot
      · simp only [List.length_singleton]; omega

/-- Candidates examined in turn: the change of the part, and their disposal. -/
theorem examined_commits (cs : List Candidate) (a : State × CommitRun) :
    Committed (cs.map fun c => c.record.robot) a.1 (cs.foldl examine a).1 ∧ ∃ ds ms, Disposal a (cs.foldl examine a) cs ds ms := by
  induction cs generalizing a with
  | nil => exact ⟨.refl _, [], [], ⟨by simp, by simp, by simp, by simp, by simp, rfl, rfl, rfl⟩⟩
  | cons c cs ih =>
    obtain ⟨h, ds, ms, d⟩ := examine_commits a c
    obtain ⟨k, es, ns, e⟩ := ih (examine a c)
    rw [List.foldl_cons]
    refine ⟨(h.mono (by simp)).trans (k.mono fun r hr => List.mem_cons_of_mem _ hr), ds ++ es, ms ++ ns, ?_⟩
    refine ⟨?_, ?_, ?_, ?_, ?_, ?_, ?_, ?_⟩
    · rw [e.deferred, d.deferred, List.append_assoc]
    · rw [e.members, d.members, List.append_assoc]
    · rw [List.map_append]; exact d.fromList.append e.fromList
    · rw [List.map_append]; exact d.robots.append e.robots
    · intro q hq
      rcases List.mem_append.1 hq with hq | hq
      · exact ⟨(d.fresh q hq).1, (d.fresh q hq).2.1, k.arming _ (d.fresh q hq).2.2⟩
      · exact e.fresh q hq
    · rw [e.admitted, d.admitted, List.length_append, Nat.add_assoc]
    · rw [e.counted, d.counted, List.length_append, Nat.add_assoc]
    · rw [e.total, d.total]; simp only [List.length_cons, List.length_nil]; omega

/-- The candidates of a chain commit, in the order in which they are examined. -/
theorem chainCandidates_order (s : State) :
    (chainCandidates s).map (fun c => (c.record, c.count)) = commitOrder { s with openWave := [] } := by
  simp [chainCandidates, deferredCandidates, commitOrder, List.filter_map, Function.comp_def, State.hasPriority, State.robot]

/-- Every candidate of a chain commit is a deferred entry, and each is taken once. -/
theorem chainCandidates_mem {s : State} {c : Candidate} (h : c ∈ chainCandidates s) : s.inDeferred c.record.robot = true := by
  simp only [chainCandidates, deferredCandidates, List.mem_append, List.mem_filter, List.mem_map] at h
  obtain ⟨⟨d, hd, rfl⟩, -⟩ | ⟨⟨d, hd, rfl⟩, -⟩ := h <;> exact List.any_eq_true.2 ⟨d, hd, by simp⟩

theorem chainCandidates_length (s : State) : (chainCandidates s).length = s.deferred.length := by
  have h := List.length_eq_length_filter_add (l := deferredCandidates s) s.hasPriority
  rw [deferredCandidates, List.length_map] at h
  rw [h, chainCandidates, List.length_append]
  rfl

/-- A chain commit does all that `ChainCommits` says, from the state `s` in which the wave has become DONE. -/
theorem chainCommit_commits {u s : State} {w : Wave} (hw : s.wave = some { w with state := .done })
    (hs : s = { u with wave := s.wave, events := s.events })
    (stuck : s.events.get .chainStuck = u.events.get .chainStuck) : ChainCommits u (chainCommit s w) w ∧
      (∀ c, c ∉ [EventClass.chainStuck, .deferDrop, .zoneConflict] → (chainCommit s w).events.get c = s.events.get c) ∧
      (chainCommit s w).events.masks = s.events.masks := by
  have order : (chainCandidates s).map (fun c => (c.record, c.count)) = commitOrder { u with openWave := [] } := by
    rw [chainCandidates_order, hs]; rfl
  have nextOrder : (chainCandidates s).map (fun c => (c.record, c.count + 1)) =
      (commitOrder { u with openWave := [] }).map fun c => (c.1, c.2 + 1) := by
    rw [← order, List.map_map]; rfl
  have robotOrder : (chainCandidates s).map (fun c => c.record.robot) =
      (commitOrder { u with openWave := [] }).map fun c => c.1.robot := by
    rw [← order, List.map_map]; rfl
  have entry : ∀ q, u.inDeferred q = false → q ∉ (chainCandidates s).map fun c => c.record.robot := by
    intro q hq hm
    obtain ⟨c, hc, rfl⟩ := List.mem_map.1 hm
    have := chainCandidates_mem hc
    rw [hs] at this
    exact absurd (this.symm.trans hq) (by decide)
  have number := chainCandidates_length s
  obtain ⟨h, ds, ms, d⟩ :=
    examined_commits (chainCandidates s) ({ s with deferred := [] }, { members := [], counts := ⟨0, 0, 0, 0⟩ })
  unfold chainCommit commitCandidates createWave
  dsimp only
  generalize (chainCandidates s).foldl examine ({ s with deferred := [] }, { members := [], counts := ⟨0, 0, 0, 0⟩ }) = b at h d ⊢
  obtain ⟨v, run⟩ := b
  obtain ⟨d1, d2, d3, d4, d5, d6, d7, d8⟩ := d
  simp only [List.nil_append, Nat.zero_add] at d1 d2 d3 d4 d5 d6 d7 d8 h
  subst d1 d2
  have frame : v = { u with robots := v.robots, zones := v.zones, lines := v.lines, wave := s.wave, deferred := v.deferred, events := v.events } := by
    have e := h.frame
    rw [hs] at e
    exact e
  have kept : (∀ l, v.line l = { u.line l with normal := (v.line l).normal }) ∧ (∀ q, u.inDeferred q = false → v.robot q = u.robot q) ∧
      ∀ z, (v.zone z).memberA = (u.zone z).memberA ∧ (v.zone z).memberB = (u.zone z).memberB := by
    refine ⟨fun l => ?_, fun q hq => ?_, fun z => ?_⟩
    · have e := h.lines l; rw [hs] at e; exact e
    · have e := h.robots q (entry q hq); rw [hs] at e; exact e
    · have e := h.zones z; rw [hs] at e; exact e
  have counter : v.waveCounter = u.waveCounter := by rw [frame]
  have epoch : v.epoch = u.epoch := by rw [frame]
  have wave : v.wave = some { w with state := .done } := by rw [frame, ← hw]
  have sum : run.counts.admitted + run.counts.deferred + run.counts.dropped + run.counts.null = u.deferred.length := by
    rw [d8, number, hs]
  have listed : v.deferred.length = run.counts.deferred := d7.symm
  have inOrder := nextOrder ▸ d3
  by_cases none : run.members = []
  · simp only [if_pos none]
    have admitted : run.counts.admitted = 0 := by rw [d6, none]; rfl
    have ended : (v.modWave fun w => { w with chainRemaining := 0 }) =
        { v with wave := some { w with state := .done, chainRemaining := 0 } } := by
      unfold State.modWave; rw [wave]
    rw [ended]
    refine ⟨⟨?_, kept.1, kept.2.1, kept.2.2, inOrder, run.counts, sum, listed, fun _ => ⟨rfl, counter, ?_⟩, fun k => absurd admitted k⟩, ?_, h.masks⟩
    · exact congrArg
        (fun x : State => { x with
          wave := some { w with state := .done, chainRemaining := 0 }
          waveCounter := v.waveCounter
          events := v.events.put .chainStuck ((v.events.get .chainStuck).raised w.number) }) frame
    · show (Events.put _ _ _).get _ = _
      rw [Events.get_put, if_pos rfl, ← stuck]
      exact congrArg (fun e => EventRec.raised e _) (h.events _ (by decide) (by decide))
    · intro c hc
      simp only [List.mem_cons, List.not_mem_nil, or_false, not_or] at hc
      show (Events.put _ _ _).get _ = _
      rw [Events.get_put, if_neg (fun e => hc.1 e.symm)]
      exact h.events c hc.2.1 hc.2.2
  · simp only [if_neg none]
    have admitted : run.counts.admitted ≠ 0 := by
      rw [d6]; exact fun e => none (List.length_eq_zero_iff.1 e)
    have next : nextWaveNumber v.waveCounter = if u.waveCounter = 0xFFFF then 1 else u.waveCounter + 1 := by
      rw [counter]; rfl
    refine ⟨⟨?_, kept.1, kept.2.1, kept.2.2, inOrder, run.counts, sum, listed, fun k => absurd k admitted, fun _ => ⟨?_, next, run.members, d6.symm, robotOrder ▸ d4, d5, ?_⟩⟩, ?_, h.masks⟩
    · exact congrArg
        (fun x : State => { x with
          waveCounter := nextWaveNumber v.waveCounter
          wave := some { number := nextWaveNumber v.waveCounter, state := .arming, origin := .chain,
                         startMark := v.epoch.counter + w.chainLead.setWidth 32, lead := w.chainLead,
                         chainRemaining := w.chainRemaining - 1, chainLead := w.chainLead, counts := run.counts,
                         members := run.members } }) frame
    · exact (h.events _ (by decide) (by decide)).trans stuck
    · show some _ = some _
      rw [epoch]
    · intro c hc
      simp only [List.mem_cons, List.not_mem_nil, or_false, not_or] at hc
      exact h.events c hc.2.1 hc.2.2

/-- What the completion test does, whole. -/
theorem doneTest_completes (u : State) : Completes u (doneTest u) := by
  have test (w : Wave) : w.ended ↔ (w.state = .running ∨ w.state = .aborting) ∧ w.undecided = 0 := by
    simp [Wave.ended, Wave.undecided, Wave.undecidedMembers, List.filter_eq_nil_iff, Member.undecided]
  have result : ∀ w, u.wave = some w → w.ended → doneTest u = waveDone u w := by
    intro w hw he
    unfold doneTest
    rw [hw]
    exact if_pos ((test w).1 he)
  refine ⟨fun hn => ?_, fun w hw he => ?_⟩
  · unfold doneTest
    split
    · rfl
    · rename_i w hw
      exact if_neg fun k => hn w hw ((test w).2 k)
  · rw [result w hw he]
    have raised : ∀ x, (u.events.put .waveDone x).get .waveDone = x := fun x => by rw [Events.get_put, if_pos rfl]
    have other : ∀ x c, c ≠ .waveDone → (u.events.put .waveDone x).get c = u.events.get c := fun x c hc => by
      rw [Events.get_put, if_neg (fun e => hc e.symm)]
    unfold waveDone State.modWave
    rw [hw]
    dsimp only [State.raise]
    split
    · rename_i last
      refine ⟨raised _, fun c hc => other _ c ?_, rfl, fun _ => ⟨by rw [last], other _⟩, fun k => absurd last k⟩
      rintro rfl; simp at hc
    · rename_i more
      split
      · rename_i empty
        refine ⟨raised _, fun c hc => other _ c ?_, rfl, fun _ => ⟨rfl, other _⟩, fun _ k => absurd empty k⟩
        rintro rfl; simp at hc
      · rename_i left
        obtain ⟨chain, events, masks⟩ := chainCommit_commits (u := u) (w := w)
          (s := { u with wave := some { w with state := .done }, events := u.events.put .waveDone ((u.events.get .waveDone).raised w.number) })
          rfl rfl (other _ _ (by decide))
        refine ⟨(events _ (by decide)).trans (raised _), fun c hc => ?_, masks, fun k => (k.elim more left).elim, fun _ _ => chain⟩
        simp only [List.mem_cons, List.not_mem_nil, or_false, not_or] at hc
        exact (events c (by simp [hc])).trans (other _ c hc.1)

end Sys2Proof.Machine
end

