-- ==== Sys2Proof/Laws/EngineFrame.lean ====
section
/-!
SUPPORT. What an event of one line never touches, said once for every operation of the Line Engine.
-/

namespace Sys2Proof.Machine

/-- What an operation of line `l`'s engine leaves unchanged: what judging leaves unchanged, but for the engine of line `l`
itself, whose timing record it keeps. -/
structure OnLine (l : LineNo) (s t : State) : Prop where
  pending : t.pending = s.pending
  resetLow : t.resetLow = s.resetLow
  timer : t.timer = s.timer
  curves : t.curves = s.curves
  profiles : t.profiles = s.profiles
  openWave : t.openWave = s.openWave
  epoch : t.epoch = s.epoch
  trunk : t.trunk = s.trunk
  static : ∀ r, (t.robot r).static = (s.robot r).static
  members : ∀ z, (t.zone z).memberA = (s.zone z).memberA ∧ (t.zone z).memberB = (s.zone z).memberB
  timing : ∀ k, (t.line k).timing = (s.line k).timing
  core : ∀ k, k ≠ l → (t.line k).core = (s.line k).core
  deferred : DeferredOk s.deferred → DeferredOk t.deferred
  events : ∃ xs, t.events = s.events.raises xs

/-- The timing record is part of what an engine holds. -/
theorem Line.timing_of_core {a b : Line} (h : a.core = b.core) : a.timing = b.timing :=
  congrArg (fun c => c.2.2.2.2.2.1) h

namespace OnLine

variable {l : LineNo} {s t u : State}

theorem of_judged (h : Judged s t) : OnLine l s t :=
  { pending := h.pending, resetLow := h.resetLow, timer := h.timer, curves := h.curves, profiles := h.profiles,
    openWave := h.openWave, epoch := h.epoch, trunk := h.trunk, static := h.static, members := h.members,
    timing := fun k => Line.timing_of_core (h.core k), core := fun k _ => h.core k, deferred := h.deferred,
    events := h.events }

theorem refl (s : State) : OnLine l s s := of_judged (Judged.refl s)

theorem trans (h : OnLine l s t) (k : OnLine l t u) : OnLine l s u where
  pending := k.pending.trans h.pending
  resetLow := k.resetLow.trans h.resetLow
  timer := k.timer.trans h.timer
  curves := k.curves.trans h.curves
  profiles := k.profiles.trans h.profiles
  openWave := k.openWave.trans h.openWave
  epoch := k.epoch.trans h.epoch
  trunk := k.trunk.trans h.trunk
  static r := (k.static r).trans (h.static r)
  members z := ⟨(k.members z).1.trans (h.members z).1, (k.members z).2.trans (h.members z).2⟩
  timing j := (k.timing j).trans (h.timing j)
  core j hj := (k.core j hj).trans (h.core j hj)
  deferred := k.deferred ∘ h.deferred
  events := by
    obtain ⟨xs, hx⟩ := h.events
    obtain ⟨ys, hy⟩ := k.events
    exact ⟨xs ++ ys, by rw [hy, hx, Events.raises_append]⟩

/-- `trans`, its second part first. -/
theorem after (k : OnLine l t u) (h : OnLine l s t) : OnLine l s u := h.trans k

theorem ite {p : Prop} [Decidable p] {a b : State} (ha : OnLine l s a) (hb : OnLine l s b) :
    OnLine l s (if p then a else b) := by split <;> assumption

theorem modLine (f : Line → Line) (hf : ∀ e, (f e).timing = e.timing) : OnLine l s (s.modLine l f) :=
  { OnLine.refl (l := l) s with
    timing := fun k => by
      rw [line_modLine]
      split
      · exact hf _
      · rfl
    core := fun k hk => by
      rw [line_modLine, if_neg (Ne.symm hk)] }

theorem touch : OnLine l s (s.touchLine l) := modLine _ fun _ => rfl
theorem setTxn (st : EngineState) (x : Txn) : OnLine l s (s.setTxn l st x) := modLine _ fun _ => rfl
theorem freeEngine : OnLine l s (s.freeEngine l) := modLine _ fun _ => rfl
theorem clearResidue : OnLine l s (s.clearResidue l) := modLine _ fun _ => rfl
theorem setResidue (ρ : Residue) (ph : Phase) : OnLine l s (s.setResidue l ρ ph) := modLine _ fun _ => rfl
theorem countGarbled : OnLine l s (s.countGarbled l) := modLine _ fun _ => rfl
theorem countRetry : OnLine l s (s.countRetry l) := modLine _ fun _ => rfl
theorem heard : OnLine l s (s.heard l) := modLine _ fun _ => rfl
theorem countSilence : OnLine l s (s.countSilence l) := modLine _ fun _ => rfl
theorem startTxn (k : TxnKind) (b : Option Body) (d : Byte) (st : EngineState) (f : FrameKind) :
    OnLine l s (s.startTxn l k b d st f) := modLine _ fun _ => rfl

theorem startUrgent (x : UrgentEntry) (rest : List UrgentEntry) : OnLine l s (startUrgent s l x rest) := by
  unfold Machine.startUrgent
  dsimp only
  split <;> exact after (startTxn _ _ _ _ _) (modLine _ fun _ => rfl)

theorem startNormal (x : NormalEntry) (rest : List NormalEntry) : OnLine l s (startNormal s l x rest) := by
  unfold Machine.startNormal
  dsimp only
  split
  · split
    · exact modLine _ fun _ => rfl
    · exact after (startTxn _ _ _ _ _) (after (of_judged (Judged.setDelivery _ _)) (modLine _ fun _ => rfl))
  · exact after (startTxn _ _ _ _ _) (modLine _ fun _ => rfl)

theorem arbiter : OnLine l s (arbiter s l) := by
  unfold Machine.arbiter
  refine ite ?_ (refl s)
  unfold Machine.arbiterChoice
  dsimp only
  split
  · exact after (startTxn _ _ _ _ _) (modLine _ fun _ => rfl)
  · split
    · exact after (startTxn _ _ _ _ _) (modLine _ fun _ => rfl)
    · split
      · exact startUrgent _ _
      · split
        · exact startNormal _ _
        · split
          · exact startTxn _ _ _ _ _
          · exact refl s

theorem finishTxn (x : Txn) (en : TxnEnd) : OnLine l s (finishTxn s l x en) :=
  freeEngine.trans (of_judged (Judged.judgeEnd _ _ _ _))

theorem beginEnding (x : Txn) : OnLine l s (beginEnding s l x) := setTxn _ _

theorem attemptFailed (x : Txn) (f : FrameKind) (n : Nat) : OnLine l s (attemptFailed s l x f n) := by
  have short : OnLine l s (Machine.attemptFailed.shortFailed s l x f n) := ite (setTxn _ _) (finishTxn _ _)
  unfold Machine.attemptFailed
  split
  · exact ite (setTxn _ _) (beginEnding _)
  · exact beginEnding _
  · exact beginEnding _
  · exact short
  · exact short
  · exact short
  · exact refl s
  · exact refl s
  · exact refl s

theorem retryBody (x : Txn) : OnLine l s (retryBody s l x) := ite (setTxn _ _) (beginEnding _)

theorem takeAnswer (x : Txn) (f : FrameKind) (a : Answer) : OnLine l s (takeAnswer s l x f a) := by
  cases a with
  | ready => exact setTxn _ _
  | notReady => exact attemptFailed _ _ _
  | accept => exact finishTxn _ _
  | retry => exact retryBody _
  | refuse => exact finishTxn _ _
  | poll => exact finishTxn _ _
  | status => exact finishTxn _ _

theorem garbledAnswer (x : Txn) (f : FrameKind) : OnLine l s (garbledAnswer s l x f) :=
  (countGarbled.trans heard).trans (attemptFailed _ _ _)

theorem residueAnswer (v : Bool) : OnLine l s (residueAnswer s l v) :=
  ite clearResidue (clearResidue.trans countGarbled)

theorem receiveAnswer (a : Option Answer) : OnLine l s (receiveAnswer s l a) := by
  have judge : ∀ x f since, OnLine l s (Machine.receiveAnswer.judgeAnswer s l a (s.touchLine l) x f since) := by
    intro x f since
    unfold Machine.receiveAnswer.judgeAnswer
    split
    · exact touch.trans (garbledAnswer _ _)
    · exact ite (touch.trans (heard.trans (takeAnswer _ _ _))) (touch.trans (garbledAnswer _ _))
  unfold Machine.receiveAnswer
  dsimp only
  split
  · split
    · exact touch.trans (residueAnswer _)
    · exact touch
  · split
    · exact touch
    · split
      · exact judge _ _ _
      · exact touch

theorem cutShort (b : Bool) : OnLine l s (cutShort s l b) := by
  unfold Machine.cutShort
  dsimp only
  split
  · split
    · exact ite (refl s) (after (residueAnswer _) (modLine _ fun _ => rfl))
    · exact refl s
    · exact refl s
    · exact refl s
  · split
    · exact refl s
    · split
      · exact ite (refl s) (after (garbledAnswer _ _) (modLine _ fun _ => rfl))
      · exact refl s
      · exact refl s
      · exact refl s

theorem beginAnswer : OnLine l s (beginAnswer s l) := by
  unfold Machine.beginAnswer
  dsimp only
  split
  · split
    · exact touch.trans (setResidue _ _)
    · exact touch
  · split
    · exact touch
    · split
      · exact touch.trans (setTxn _ _)
      · exact touch

theorem lineDown : OnLine l s (lineDown s l) :=
  after (of_judged (Judged.loseMembers l)) (after (of_judged (Judged.raise _ _)) (modLine _ fun _ => rfl))

theorem silentWait (x : Txn) (f : FrameKind) : OnLine l s (silentWait s l x f) := by
  unfold Machine.silentWait
  dsimp only
  exact ite (countSilence.trans lineDown) (countSilence.trans (attemptFailed _ _ _))

theorem waitSilence : OnLine l s (waitSilence s l) := by
  unfold Machine.waitSilence
  split
  · exact refl s
  · split
    · exact ite (silentWait _ _) (refl s)
    · exact refl s
    · exact refl s
    · exact refl s

theorem frameSent : OnLine l s (frameSent s l) := by
  unfold Machine.frameSent
  dsimp only
  split
  · split
    · exact ite (touch.trans (setResidue _ _)) (refl s)
    · exact refl s
  · split
    · exact refl s
    · split
      · exact ite (touch.trans (setTxn _ _)) (refl s)
      · exact refl s

theorem broadcastEnds : OnLine l s (broadcastEnds s l) := by
  unfold Machine.broadcastEnds
  dsimp only
  split
  · exact ite (ite (touch.trans (clearResidue.trans (of_judged (Judged.judgeEnd _ _ _ _)))) (touch.trans clearResidue))
      (refl s)
  · split
    · exact refl s
    · exact ite (touch.trans (finishTxn _ _)) (refl s)

theorem endEnds : OnLine l s (endEnds s l) := by
  unfold Machine.endEnds
  dsimp only
  split
  · exact ite (touch.trans clearResidue) (refl s)
  · split
    · exact refl s
    · exact ite (touch.trans (finishTxn _ _)) (refl s)

theorem sendFrame (x : Txn) (f : FrameKind) : OnLine l s (sendFrame s l x f) := by
  unfold Machine.sendFrame
  dsimp only
  split
  · exact ite (setTxn _ _) ((setTxn _ _).trans countRetry)
  · exact (setTxn _ _).trans countRetry

theorem nextFrame (b : Bool) : OnLine l s (nextFrame s l b) := by
  unfold Machine.nextFrame
  dsimp only
  split
  · exact refl s
  · split
    · exact ite (ite (setTxn _ _) (sendFrame _ _)) (refl s)
    · exact refl s
    · exact refl s
    · exact refl s

theorem resetLine : OnLine l s (resetLine s l) :=
  after (of_judged (Judged.resetFailures _ _ _)) (modLine _ fun _ => rfl)

end OnLine

end Sys2Proof.Machine
end

