-- ==== Sys2Proof/Laws/PortFrame.lean ====
section
/-!
SUPPORT. The trunk port: what serving a request never touches, how a request frame is read back, and how a request command
is answered at once by a ready part.
-/

namespace Sys2Proof.Machine

/-! ### What serving a request never touches -/

/-- What no request changes: the waiting commands, the reset pin, the timer and the port itself. -/
structure Serves (s t : State) : Prop where
  pending : t.pending = s.pending
  resetLow : t.resetLow = s.resetLow
  timer : t.timer = s.timer
  trunk : t.trunk = s.trunk

namespace Serves

variable {s t u : State}

theorem refl (s : State) : Serves s s := ⟨rfl, rfl, rfl, rfl⟩

theorem trans (h : Serves s t) (k : Serves t u) : Serves s u :=
  ⟨k.pending.trans h.pending, k.resetLow.trans h.resetLow, k.timer.trans h.timer, k.trunk.trans h.trunk⟩

theorem of_judged (h : Judged s t) : Serves s t := ⟨h.pending, h.resetLow, h.timer, h.trunk⟩

theorem of_onLine {l : LineNo} (h : OnLine l s t) : Serves s t := ⟨h.pending, h.resetLow, h.timer, h.trunk⟩

theorem withdraw (r : RobotNo) : Serves s (s.withdraw r) := by
  unfold State.withdraw
  split
  · exact ⟨rfl, rfl, rfl, rfl⟩
  · exact refl s

theorem placeRecord (m : MoveRecord) : Serves s (s.placeRecord m) :=
  (withdraw m.robot).trans ⟨rfl, rfl, rfl, rfl⟩

theorem withMover (r : RobotNo) (p : Byte) (f : Robot → ProfileNo → Served) (hf : ∀ b q, Serves s (f b q).state) :
    Serves s (withMover s r p f).state := by
  unfold Machine.withMover
  split
  · exact refl s
  · split
    · exact refl s
    · split
      · exact refl s
      · exact hf _ _

theorem moveRequest (r : RobotNo) (h e : Word) (p : Byte) : Serves s (moveRequest s r h e p).state := by
  unfold Machine.moveRequest
  refine withMover _ _ _ fun b q => ?_
  split
  · exact refl s
  · exact placeRecord _

theorem retraceRequest (r : RobotNo) (p : Byte) : Serves s (retraceRequest s r p).state := by
  unfold Machine.retraceRequest
  refine withMover _ _ _ fun b q => ?_
  split
  · exact refl s
  · exact placeRecord _

theorem homeRequest (r : RobotNo) (p : Byte) : Serves s (homeRequest s r p).state :=
  withMover _ _ _ fun _ _ => placeRecord _

theorem cancelRequest (r : RobotNo) : Serves s (cancelRequest s r).state := by
  unfold Machine.cancelRequest
  split
  · exact withdraw r
  · split
    · exact withdraw r
    · exact refl s

theorem withReachable (r : RobotNo) (h : Serves s t) : Serves s (withReachable s r t).state := by
  unfold Machine.withReachable
  split
  · exact refl s
  · split
    · exact refl s
    · exact h

theorem haltRequest (r : RobotNo) : Serves s (haltRequest s r).state := by
  refine withReachable r ?_
  split
  · exact (of_judged (Judged.stopMember _ _)).trans (of_judged (Judged.offerHalt _))
  · exact of_judged (Judged.offerHalt _)

theorem refreshRequest (r : RobotNo) : Serves s (refreshRequest s r).state :=
  withReachable r (of_judged (Judged.offerRead _ _ _))

theorem flagsRequest (a b : Half) (op mask : Byte) : Serves s (flagsRequest s a b op mask).state := by
  unfold Machine.flagsRequest
  split
  · exact refl s
  · split
    · exact refl s
    · exact ⟨rfl, rfl, rfl, rfl⟩

theorem commitRequested (a b c : Byte) : Serves s (commitRequested s a b c).1 := by
  have emptied : Serves s { s with openWave := [], deferred := [] } := ⟨rfl, rfl, rfl, rfl⟩
  unfold Machine.commitRequested
  exact emptied.trans (of_judged (Judged.commitCandidates _ _))

theorem commitRequest (a b c : Byte) : Serves s (commitRequest s a b c).state := by
  unfold Machine.commitRequest
  split
  · exact refl s
  · split
    · exact refl s
    · split
      · exact refl s
      · exact commitRequested a b c

theorem abortRequest : Serves s (abortRequest s).state := by
  have whole : Serves s (Machine.doneTest (Machine.abortWave s).1) :=
    of_judged ((Judged.abortWave (s := s)).trans Judged.doneTest)
  have aborted : ∀ w, Serves s (Machine.abortRequest.aborted s w).state := by
    intro w
    unfold Machine.abortRequest.aborted
    exact whole
  unfold Machine.abortRequest
  split
  · exact refl s
  · split
    · exact refl s
    · exact refl s
    · exact aborted _
    · exact aborted _
    · exact aborted _

theorem takeRequest : Serves s (takeRequest s).state := by
  unfold Machine.takeRequest
  split
  · exact refl s
  · exact ⟨rfl, rfl, rfl, rfl⟩

theorem resetNamed (mask : Byte) (l : LineNo) : Serves s (resetNamed s mask l).1 := by
  unfold Machine.resetNamed
  split
  · exact of_onLine (OnLine.resetLine (l := l))
  · exact refl s

theorem lineResetRequest (mask : Byte) : Serves s (lineResetRequest s mask).state :=
  (((resetNamed mask 0).trans (resetNamed mask 1)).trans (resetNamed mask 2)).trans (resetNamed mask 3)

theorem applyRobot (r : RobotNo) (b : RobotStatic) : Serves s (applyRobot s r b) :=
  (withdraw r).trans ⟨rfl, rfl, rfl, rfl⟩

theorem applyRobots (xs : List (RobotNo × RobotStatic)) (s : State) : Serves s (applyRobots s xs) := by
  induction xs generalizing s with
  | nil => exact refl s
  | cons x xs ih => exact (applyRobot x.1 x.2).trans (ih _)

theorem loadRobots (first count : Nat) (records : List (List Byte)) :
    Serves s (loadRobots s first count records).state := by
  unfold Machine.loadRobots
  dsimp only
  split
  · exact refl s
  · split
    · exact refl s
    · refine (applyRobots _ s).trans
        (trans (t := (Machine.applyRobots s _).modLines _) ⟨rfl, rfl, rfl, rfl⟩ (of_judged (Judged.settle _)))

theorem loadZones (first count : Nat) (records : List (List Byte)) :
    Serves s (loadZones s first count records).state := by
  unfold Machine.loadZones
  split
  · exact refl s
  · split
    · exact refl s
    · rename_i ms _
      exact (⟨rfl, rfl, rfl, rfl⟩ : Serves s { s with zones := mapTable (withMembers s first ms) s.zones }).trans
        (of_judged (Judged.settle _))

theorem loadEpochRecord (count : Nat) (bs : List Byte) : Serves s (loadEpochRecord s count bs).state := by
  unfold Machine.loadEpochRecord
  split
  · exact refl s
  · exact ⟨rfl, rfl, rfl, rfl⟩

theorem serveLoad (k : Byte) (first count : Half) (bs : List Byte) : Serves s (serveLoad s k first count bs).state := by
  unfold Machine.serveLoad
  split
  · exact refl s
  · split
    · exact refl s
    · split
      · exact refl s
      · unfold Machine.loadTable
        split
        · exact loadRobots _ _ _
        · exact ⟨rfl, rfl, rfl, rfl⟩
        · exact ⟨rfl, rfl, rfl, rfl⟩
        · exact loadZones _ _ _
        · exact ⟨rfl, rfl, rfl, rfl⟩
        · exact loadEpochRecord _ _

/-- A READ changes no state (R167). -/
theorem serveRead_state (s : State) (k : Byte) (first count : Half) : (serveRead s k first count).state = s := by
  unfold Machine.serveRead
  split
  · rfl
  · split
    · rfl
    · split <;> rfl

theorem perform (q : Request) : Serves s (perform s q).state := by
  cases q with
  | move => exact moveRequest _ _ _ _
  | retrace => exact retraceRequest _ _
  | home => exact homeRequest _ _
  | cancel => exact cancelRequest _
  | halt => exact haltRequest _
  | refresh => exact refreshRequest _
  | report => exact refl s
  | load => exact serveLoad _ _ _ _
  | read k a b => exact (show Serves s (serveRead s k a b).state by rw [serveRead_state]; exact refl s)
  | flags => exact flagsRequest _ _ _ _
  | commit => exact commitRequest _ _ _
  | abort => exact abortRequest
  | take => exact takeRequest
  | mask => exact ⟨rfl, rfl, rfl, rfl⟩
  | status => exact refl s
  | lineReset => exact lineResetRequest _
  | reset => exact refl s

theorem serve (f : Frame) : Serves s (serve s f).state := by
  unfold Machine.serve
  split
  · exact refl s
  · exact perform _

end Serves

/-! ### Reading a request frame back (R161) -/

theorem index?_of_lt {n i : Nat} (h : i < n) : index? n i = some ⟨i, h⟩ := dif_pos h

theorem index?_of_le {n i : Nat} (h : n ≤ i) : index? n i = none := dif_neg (Nat.not_lt.2 h)

/-- A robot number as a destination field. -/
theorem index?_robot (r : RobotNo) : index? 480 (halfOf r.val).toNat = some r := by
  have h : (halfOf r.val).toNat = r.val := by
    have := r.isLt
    simp only [halfOf, BitVec.toNat_ofNat]; omega
  rw [h, index?_of_lt r.isLt]

theorem parse_move (r : RobotNo) (hub elbow : Word) (p : Byte) :
    parseRequest (moveFrame (halfOf r.val) hub elbow p) = .ok (.move r hub elbow p) := by
  have h0 : u32 (le32 hub ++ le32 elbow ++ [p]) 0 = hub := by rw [List.append_assoc]; exact u32_le32 _ _
  have h4 : u32 (le32 hub ++ le32 elbow ++ [p]) 4 = elbow := by
    rw [List.append_assoc]; exact (u32_append_right (le32 hub) _ 0).trans (u32_le32 _ _)
  have h8 : u8 (le32 hub ++ le32 elbow ++ [p]) 8 = p := u8_append_right (le32 hub ++ le32 elbow) [p] 0
  simp only [parseRequest, moveFrame, robotRequest, index?_robot, h0, h4, h8]
  rfl

theorem parse_retrace (r : RobotNo) (p : Byte) :
    parseRequest (retraceFrame (halfOf r.val) p) = .ok (.retrace r p) := by
  simp only [parseRequest, retraceFrame, robotRequest, index?_robot]; rfl

theorem parse_home (r : RobotNo) (p : Byte) : parseRequest (homeFrame (halfOf r.val) p) = .ok (.home r p) := by
  simp only [parseRequest, homeFrame, robotRequest, index?_robot]; rfl

theorem parse_cancel (r : RobotNo) : parseRequest (bareFrame (halfOf r.val) 4) = .ok (.cancel r) := by
  simp only [parseRequest, bareFrame, robotRequest, index?_robot]; rfl

theorem parse_halt (r : RobotNo) : parseRequest (bareFrame (halfOf r.val) 5) = .ok (.halt r) := by
  simp only [parseRequest, bareFrame, robotRequest, index?_robot]; rfl

theorem parse_refresh (r : RobotNo) : parseRequest (bareFrame (halfOf r.val) 6) = .ok (.refresh r) := by
  simp only [parseRequest, bareFrame, robotRequest, index?_robot]; rfl

theorem parse_report (r : RobotNo) : parseRequest (bareFrame (halfOf r.val) 7) = .ok (.report r) := by
  simp only [parseRequest, bareFrame, robotRequest, index?_robot]; rfl

theorem u16_cons (b : Byte) (bs : List Byte) (o : Nat) : u16 (b :: bs) (o + 1) = u16 bs o := rfl

theorem parse_load (table : Byte) (first count : Half) (records : List Byte) :
    parseRequest (loadFrame 0xFFFF table first count records) = .ok (.load table first count records) := by
  have h1 : u16 (table :: (le16 first ++ le16 count ++ records)) 1 = first := by
    rw [u16_cons, List.append_assoc]; exact u16_le16 _ _
  have h3 : u16 (table :: (le16 first ++ le16 count ++ records)) 3 = count := by
    rw [u16_cons, List.append_assoc]; exact (u16_append_right (le16 first) _ 0).trans (u16_le16 _ _)
  simp only [parseRequest, loadFrame, h1, h3]
  simp [controllerRequest, u8, le16]

theorem parse_read (table : Byte) (first count : Half) :
    parseRequest (readFrame 0xFFFF table first count) = .ok (.read table first count) := by
  have h1 : u16 (table :: (le16 first ++ le16 count)) 1 = first := by rw [u16_cons]; exact u16_le16 _ _
  have h3 : u16 (table :: (le16 first ++ le16 count)) 3 = count := by
    rw [u16_cons]
    have := (u16_append_right (le16 first) (le16 count ++ []) 0).trans (u16_le16 count [])
    simpa using this
  simp only [parseRequest, readFrame, h1, h3]
  simp [controllerRequest, u8, le16]

theorem parse_flags (first last : Half) (op mask : Byte) :
    parseRequest (flagsFrame 0xFFFF first last op mask) = .ok (.flags first last op mask) := by
  have h0 : u16 (le16 first ++ le16 last ++ [op, mask]) 0 = first := by rw [List.append_assoc]; exact u16_le16 _ _
  have h2 : u16 (le16 first ++ le16 last ++ [op, mask]) 2 = last := by
    rw [List.append_assoc]; exact (u16_append_right (le16 first) _ 0).trans (u16_le16 _ _)
  simp only [parseRequest, flagsFrame, h0, h2]
  simp [controllerRequest, u8, le16]

theorem parse_commit (a b c : Byte) : parseRequest (commitFrame 0xFFFF a b c) = .ok (.commit a b c) := rfl

theorem parse_abort : parseRequest (bareFrame 0xFFFF 20) = .ok .abort := rfl

theorem parse_take : parseRequest (bareFrame 0xFFFF 21) = .ok .take := rfl

theorem parse_mask (a b c d : Byte) : parseRequest (maskFrame 0xFFFF a b c d) = .ok (.mask a b c d) := rfl

theorem parse_status : parseRequest (bareFrame 0xFFFF 23) = .ok .status := rfl

theorem parse_lineReset (m : Byte) : parseRequest (lineResetFrame 0xFFFF m) = .ok (.lineReset m) := rfl

theorem parse_reset : parseRequest (bareFrame 0xFFFF 25) = .ok .reset := rfl

/-! ### A request command taken at once -/

/-- A command of the running part has its effect. -/
theorem running_run {s : State} (h : s.resetLow = false) (f : State → State) : running s f = .next (f s) := by
  rw [running, if_neg (by rw [h]; decide)]

/-- A request command hands its frame to the port. -/
theorem exec_request {q : Instr} {f : Frame} {s : State} (hq : requestFrame q = some f) (h : s.resetLow = false) :
    exec q s = .next (submit s f) := by
  cases q <;> simp only [requestFrame, Option.some.injEq, reduceCtorEq] at hq <;> subst hq <;>
    exact running_run h fun s => submit s _

/-- The state in which a ready part carries out a request: the receiving half back in HUNT, the queue empty. -/
def State.hunting (s : State) : State := { s with trunk := { s.trunk with rx := .hunt, queue := [] } }

/-- A ready part takes a request frame at once: it is carried out, and its reply begins (R157, R159). -/
theorem submit_ready {s : State} (h : Ready s) {f : Frame} (hf : f.payload.length ≤ Config.payloadMax) :
    submit s f = (serve s.hunting f).state.replying (replyTo f (serve s.hunting f)) := by
  obtain ⟨-, hrx, hd, hq⟩ := h
  have accept : acceptFrame s f = (serve s.hunting f).state.replying (replyTo f (serve s.hunting f)) := by
    have ho : offerFrame (s.setRx .hunt) f = { s with trunk := { s.trunk with rx := .hunt, queue := [f] } } := by
      simp [offerFrame, State.setRx, hq, Config.queueDepth]
    have ht : dispatchNext { s with trunk := { s.trunk with rx := .hunt, queue := [f] } } = take s.hunting f := by
      simp [dispatchNext, hd, State.hunting]
    have hs := (Serves.serve (s := s.hunting) f).trunk
    unfold acceptFrame
    rw [ho, ht]
    unfold take State.replying
    dsimp only
    rw [hs]
    simp [State.hunting]
  unfold submit
  split
  · rename_i hk; exact absurd hk hrx
  · rw [if_neg (by omega), accept]
  · rw [if_neg (by omega), accept]

end Sys2Proof.Machine
end

