-- ==== Sys2Proof/WellFormed.lean ====
section
/-!
DEFINITION. Which commands are well formed: those whose operands an event of the spec can carry. Meanings do not rely
on it: `Machine.exec` answers for every command.
-/

namespace Sys2Proof.WellFormed

/-- The records of a LOAD fit in a payload of 512 bytes behind the 5-byte header (R154, 10.3). -/
def recordsFit (records : List Byte) : Bool := records.length + 5 ≤ Config.payloadMax

/-- The payload of a frame that can be received (R154). -/
def payloadFits (payload : List Byte) : Bool := payload.length ≤ Config.payloadMax

/-- The length field of a frame that cannot be received (R154). -/
def oversize (length : Half) : Bool := Config.payloadMax < length.toNat

/-- A robot state code, 0–6 (R185). -/
def stateCode (code : Byte) : Bool := code.toNat ≤ 6

/-- An answer that has begun holds at least its first character (R131). -/
def begun (bytes : List Byte) : Bool := !bytes.isEmpty

/-- Well-formed commands. -/
def wf : Instr → Bool
  | .move _ _ _ _ => true
  | .retrace _ _ => true
  | .home _ _ => true
  | .cancel _ => true
  | .halt _ => true
  | .refresh _ => true
  | .report _ => true
  | .loadRobot _ _ _ records => recordsFit records
  | .loadCurve _ _ _ records => recordsFit records
  | .loadProfile _ _ _ records => recordsFit records
  | .loadZone _ _ _ records => recordsFit records
  | .loadLineTiming _ _ _ records => recordsFit records
  | .loadEpoch _ _ _ records => recordsFit records
  | .readRobot _ _ _ => true
  | .readCurve _ _ _ => true
  | .readProfile _ _ _ => true
  | .readZone _ _ _ => true
  | .readLineTiming _ _ _ => true
  | .readEpoch _ _ _ => true
  | .readRobotState _ _ _ => true
  | .readZoneState _ _ _ => true
  | .readDeferred _ _ _ => true
  | .readWave _ _ _ => true
  | .flagsSet _ _ _ _ => true
  | .flagsClear _ _ _ _ => true
  | .flagsToggle _ _ _ _ => true
  | .commit _ _ _ _ => true
  | .abort _ => true
  | .take _ => true
  | .mask _ _ _ _ _ => true
  | .status _ => true
  | .lineReset _ _ => true
  | .reset _ => true
  | .trunkFrameComplete _ _ payload _ => payloadFits payload
  | .trunkLengthOversize length => oversize length
  | .trunkGapAbandon => true
  | .trunkSkipQuiet => true
  | .replySent => true
  | .resetNAssert => true
  | .powerOnReset => true
  | .epochMark => true
  | .epochPulse _ => true
  | .lineArbiterChoose _ _ => true
  | .lineFrameSent _ _ => true
  | .broadcastSent _ _ => true
  | .nextFrameSend _ _ => true
  | .endFrameSend _ _ => true
  | .endSent _ _ => true
  | .answerReady _ _ => true
  | .answerNotReady _ _ => true
  | .answerAccept _ _ => true
  | .answerRetry _ _ => true
  | .answerRefuse _ _ _ => true
  | .answerPoll _ _ code _ _ _ _ => stateCode code
  | .answerStatus _ _ code _ _ _ _ _ => stateCode code
  | .answerGarbled _ _ bytes => begun bytes
  | .answerWaitSilence _ _ => true
  | .answerCharGap _ _ => true
  | .readAnswerDeadline _ _ => true
  | .strayCharacter _ _ => true
  | .overrunDeadline _ _ => true
  | .startCharacter => true
  | .answerBegun _ _ => true

end Sys2Proof.WellFormed
end

