-- ==== Sys2Proof/Tests/Slice0.lean ====
section
/-!
SUPPORT. Tests: the ill-formed commands that each check of WellFormed refuses; the worked figures of the spec, each one step
on a small state; and for every statement with hypotheses a state and operands that meet them, clause by clause.
Expected values come from the spec's worked examples and tables, named in each docstring.
-/

set_option Elab.async false

namespace Sys2Proof.Tests

open Sys2Proof.Machine

/-! ### Helpers -/

/-- The state a command leaves. -/
def done (c : Instr) (s : State) : State :=
  match exec c s with
  | .next t => t
  | .fault _ => State.reset
  | .refused _ => State.reset

/-- Status, attention value and payload of the reply being sent. -/
def answer? (s : State) : Option (Status × Byte × List Byte) :=
  match s.trunk.disp with
  | .waiting => none
  | .replying r => some (r.status, r.attention, r.payload)

/-- An angle or a step count as a word. -/
def int (x : Int) : Word := BitVec.ofInt 32 x

/-- A pair of values. -/
def pair (h e : Int) : Pair := ⟨int h, int e⟩

/-- A position of the neighbourhood of 11.1: steps are ten times the angles. -/
def spot (h e : Int) : Position := ⟨pair h e, pair (10 * h) (10 * e)⟩

/-- The record of a robot of 11.1 on line B. -/
def neighbour (drop : Byte) (links : List Link) (h e : Int) : Robot :=
  { Robot.reset with
    static := { RobotStatic.absent with
      present := true, line := 1, drop := drop, enable := true, gearHub := 655360, gearElbow := 655360,
      hubMin := int (-190000), hubMax := 190000, elbowMin := 0, elbowMax := 190000, links := links }
    slot := .idle, believed := spot h e, stack := [Position.zero], rest := .idle }

/-- A link of 11.1. -/
def link (z : ZoneId) (ws we : Int) : Link := ⟨z, int ws, int we, 120000⟩

/-- Robots 12, 13 and 14 and zones 40 and 41 as 11.1 and 11.2 give them. -/
def base : State :=
  let s := State.reset.setRobot 12 (neighbour 5 [link 40 30000 90000] 0 60000)
  let s := s.setRobot 13 (neighbour 6 [link 41 30000 90000, link 40 (-150000) (-90000)] 60000 150000)
  let s := s.setRobot 14 (neighbour 7 [link 41 (-150000) (-90000)] 0 60000)
  let s := s.setZone 40 ⟨some 12, some 13, .free, false, false⟩
  let s := s.setZone 41 ⟨some 13, some 14, .parked 13, false, false⟩
  { s with epoch := { s.epoch with counter := 4000 } }

/-- A GOTO record of 11.3. -/
def goto (r : RobotNo) (h e : Int) : MoveRecord :=
  ⟨r, .goto ⟨pair h e, pair (10 * h) (10 * e), false, false⟩, 1⟩

/-- The open wave of 11.3. -/
def moved : State := { base with openWave := [goto 14 (-120000) 140000, goto 13 (-120000) 140000, goto 12 60000 100000] }

/-- 11.3: the MOVE of robot 14 is answered OK with its target, its steps and clear flags. -/
theorem test_move : answer? (done (.move 14 (int (-120000)) 140000 1) base) =
    some (.ok, 0, le32 (int (-120000)) ++ le32 140000 ++ le32 (int (-1200000)) ++ le32 1400000 ++ [0]) := by
  decide +kernel

/-- 11.4: admitted 2, deferred 1, dropped 0, null 0, wave 1, start mark 4003, attention value 0. -/
theorem test_commit : answer? (done (.commit 0xFFFF 3 1 2) moved) =
    some (.ok, 0, le16 2 ++ le16 1 ++ le16 0 ++ le16 0 ++ le16 1 ++ le32 4003) := by decide +kernel

/-- 11.4: members 13 and 12 in that order, both zones MOVING(13), robot 14 deferred with count 1. -/
theorem test_commit_members :
    let t := done (.commit 0xFFFF 3 1 2) moved
    t.members.map (fun m => (m.robot, m.plan.body)) =
      [(13, .segment ⟨true, true, 18000, 6553600, 0, 364088, 16000⟩),
        (12, .segment ⟨false, false, 6000, 6553600, 0, 4369066, 4000⟩)] ∧
    (t.zone 40).holder = .moving 13 ∧ (t.zone 41).holder = .moving 13 ∧
    t.deferred.map (fun d => (d.record.robot, d.count)) = [(14, 1)] := by decide +kernel

/-- Robot 37 of 2.6 with its curves and profile 2. -/
def calibrated : State :=
  let r : Robot := { neighbour 9 [] 0 0 with
    static := { (neighbour 9 [] 0 0).static with
      line := 0, hubCurve := 1, elbowCurve := 2, gearHub := 688128, gearElbow := 802816, coupling := int (-8192),
      offHub := int (-1000), offElbow := 2000, hubMin := int (-170000), hubMax := 170000, elbowMax := 180000 }
    believed := ⟨pair 38190 89810, pair 400000 1100000⟩ }
  let zero : Curve := Vector.replicate 17 0
  let hub := (((zero.set 9 120).set 10 (BitVec.ofInt 16 (-40))).set 15 200).set 16 260
  let s := State.reset.setRobot 37 r
  { s with
    curves := (s.curves.set 1 hub).set 2 ((zero.set 7 60).set 8 90)
    profiles := s.profiles.set 2 ⟨120, 150, 50, 500, 60000⟩ }

/-- 2.6: robot 37's target steps are (471 259, 1 099 821). -/
theorem test_move_calibrated : answer? (done (.move 37 45000 90000 2) calibrated) =
    some (.ok, 0, le32 45000 ++ le32 90000 ++ le32 471259 ++ le32 1099821 ++ [0]) := by decide +kernel

/-- 2.6: the clamped target (170 000, 90 000) has steps (1 786 195, 1 084 167) and the hub clamped flag. -/
theorem test_move_clamped : answer? (done (.move 37 185000 90000 2) calibrated) =
    some (.clamped, 0, le32 170000 ++ le32 90000 ++ le32 1786195 ++ le32 1084167 ++ [1]) := by decide +kernel

/-- 2.6: robot 37's plan has N 594, X 7 862 003 and 19 749, A 42 and 38, the elbow negative. -/
theorem test_plan : planMove (calibrated.robot 37).static (calibrated.profile 2) (calibrated.robot 37).believed
      ⟨pair 45000 90000, pair 471259 1099821⟩ =
    .plan ⟨some ⟨pair 38190 89810, pair 400000 1100000⟩, ⟨pair 45000 90000, pair 471259 1099821⟩,
      .segment ⟨false, true, 594, 7862003, 42, 19749, 38⟩⟩ := by decide +kernel

/-- 2.6: the elbow's step generator after 16 intervals has remainder 14, phase 53 841 and 4 steps. -/
theorem test_generator : Axis.after 19749 38 594 16 = ⟨53841, 14, 4⟩ := by decide +kernel

/-- 2.6: a target step distance of 70 000 at 1 step an interval is LONG. -/
theorem test_plan_long : planMove (calibrated.robot 37).static ⟨1, 100, 20, 500, 60000⟩
    ⟨pair 0 0, pair 10000 40000⟩ ⟨pair 0 0, pair 80000 40300⟩ = .long := by decide +kernel

/-- R139: the one-byte message 01h gives the CRC 1E0Eh. -/
theorem test_crc : crc [1] = 0x1E0E := by decide +kernel

/-- R31: the reply of a RETRACE gives the stack depth, here 1 (11.1). -/
theorem test_retrace : answer? (done (.retrace 13 1) base) = some (.ok, 0, [0, 1]) := by decide +kernel

/-- R32: a HOME for a robot with a record in the open wave is REPLACED. -/
theorem test_home : answer? (done (.home 13 1) moved) = some (.ok, 0, [4]) := by decide +kernel

/-- R30: the record a HOME replaces leaves the open wave, and the new one joins at the tail. -/
theorem test_home_tail : (done (.home 14 1) moved).openWave.map MoveRecord.robot = [13, 12, 14] := by decide +kernel

/-- R64: a CANCEL names the list OPEN (1) and the kind GOTO (1). -/
theorem test_cancel : answer? (done (.cancel 13) moved) = some (.ok, 0, [1, 1, 0]) := by decide +kernel

/-- R64: a CANCEL with no record is refused NOTFOUND (27). -/
theorem test_cancel_notfound : answer? (done (.cancel 13) base) = some (.refused, 0, [27, 0, 0]) := by decide +kernel

/-- R109: a HALT for an IDLE robot lists the HALT single and changes no slot state. -/
theorem test_halt :
    let t := done (.halt 13) base
    answer? t = some (.queued, 0, []) ∧ (t.line 1).urgent = [⟨13, .halt⟩] ∧ (t.robot 13).slot = .idle := by
  decide +kernel

/-- R111: a REFRESH lists a READ. -/
theorem test_refresh :
    let t := done (.refresh 13) base
    answer? t = some (.queued, 0, []) ∧ (t.line 1).normal = [⟨13, false, true, false⟩] := by decide +kernel

/-- 10.5: a REPORT of robot 13 holds line B, drop 6, ENABLE, IDLE, rest state IDLE, a valid position and depth 1. -/
theorem test_report : (answer? (done (.report 13) base)).map (fun x => (x.2.2.take 7, x.2.2.getD 33 0, x.2.2.length)) =
    some ([1, 1, 6, 1, 2, 2, 1], 1, 108) := by decide +kernel

/-- R5: a record at drop 0 is refused BADADDR (19) with its robot number. -/
theorem test_load_robot : answer? (done (.loadRobot 0xFFFF 20 1 (1 :: List.replicate 151 0)) base) =
    some (.refused, 0, [19, 20, 0]) := by decide +kernel

/-- R6: a record with present no makes its robot ABSENT, and its zones settle: 40 and 41 are no longer held for 13. -/
theorem test_load_robot_absent :
    let t := done (.loadRobot 0xFFFF 13 1 (List.replicate 152 0)) base
    answer? t = some (.ok, 0, [1, 0, 0, 0]) ∧ (t.robot 13).slot = .absent ∧ (t.zone 41).holder = .free := by
  decide +kernel

/-- R22: a knot of 9000 is clamped to 8191 and the reply is CLAMPED. -/
theorem test_load_curve :
    let t := done (.loadCurve 0xFFFF 5 1 (le16 9000 ++ List.replicate 32 0)) base
    answer? t = some (.clamped, 0, [1, 0]) ∧ (t.curve 5).knot 0 = 8191 := by decide +kernel

/-- R23: V_h 0 is clamped to 1. -/
theorem test_load_profile :
    let t := done (.loadProfile 0xFFFF 1 1 (le16 0 ++ le16 100 ++ le16 20 ++ le16 500 ++ le32 60000)) base
    answer? t = some (.clamped, 0, [1, 0]) ∧ (t.profile 1).vHub = 1 := by decide +kernel

/-- R58: members that leave out robot 13, which links to zone 41, are refused BADLINK (23) with the zone id. -/
theorem test_load_zone : answer? (done (.loadZone 0xFFFF 41 1 (le16 14 ++ le16 12)) base) =
    some (.refused, 0, [23, 41, 0]) := by decide +kernel

/-- R137: T_GAP 0 is clamped to 10. -/
theorem test_load_line_timing :
    let t := done (.loadLineTiming 0xFFFF 1 1
      (le16 300 ++ le16 2000 ++ le16 300 ++ le16 1500 ++ le16 0 ++ le16 0 ++ [4, 3] ++ le16 50 ++ [8, 0])) base
    answer? t = some (.clamped, 0, [1, 0]) ∧ (t.line 1).timing.tGap = 10 := by decide +kernel

/-- R151: a period of 5000 is clamped to 10 000, then a window of 2000 to an eighth of it, 1250. -/
theorem test_load_epoch : answer? (done (.loadEpoch 0xFFFF 0 1 ([1] ++ le32 5000 ++ le32 2000 ++ le32 0)) base) =
    some (.clamped, 0, [1, 0, 1] ++ le32 10000 ++ le32 1250 ++ le32 100000) := by decide +kernel

/-- 10.4: the profile record after power-on reset (R24). -/
theorem test_read_profile : answer? (done (.readProfile 0xFFFF 1 1) base) =
    some (.ok, 0, le16 100 ++ le16 100 ++ le16 20 ++ le16 500 ++ le32 60000) := by decide +kernel

/-- 10.5: zone 41 reads members 13 and 14, PARKED (2) by 13; zone 40 members 12 and 13, FREE with FFFFh (11.2). -/
theorem test_read_zone_state : answer? (done (.readZoneState 0xFFFF 40 2) base) =
    some (.ok, 0, le16 12 ++ le16 13 ++ [0] ++ le16 0xFFFF ++ le16 13 ++ le16 14 ++ [2] ++ le16 13) := by decide +kernel

/-- 10.4: zone 1 after power-on reset reads no members. -/
theorem test_read_zone : answer? (done (.readZone 0xFFFF 1 1) base) = some (.ok, 0, [255, 255, 255, 255]) := by
  decide +kernel

/-- 10.5: a position beyond the deferred list reads FFFFh and 21 zeros. -/
theorem test_read_deferred : answer? (done (.readDeferred 0xFFFF 63 1) base) =
    some (.ok, 0, [255, 255] ++ List.replicate 21 0) := by decide +kernel

/-- R89, 10.5: a READ of WAVE with no record: wave number 0, state NONE, member count 0, then FFFFh beyond the list. -/
theorem test_read_wave :
    (answer? (done (.readWave 0xFFFF 0 1) base)).map (fun x =>
      (x.2.2.length, x.2.2.take 3, (x.2.2.drop 19).take 2, (x.2.2.drop 23).take 2)) =
    some (37, [0, 0, 0], [0, 0], [255, 255]) := by decide +kernel

/-- 8.7: a READ of curves 0 to 14 has 510 bytes of payload; one more record is refused LENGTH (32). -/
theorem test_read_curve : (answer? (done (.readCurve 0xFFFF 0 15) base)).map (fun x => x.2.2.length) = some 510 ∧
    answer? (done (.readCurve 0xFFFF 0 16) base) = some (.error, 0, [32]) := by decide +kernel

/-- 10.4, 10.5: the sizes of a robot record and a robot state record. -/
theorem test_read_robot : (answer? (done (.readRobot 0xFFFF 13 1) base)).map (fun x => x.2.2.length) = some 152 ∧
    (answer? (done (.readRobotState 0xFFFF 13 1) base)).map (fun x => x.2.2.length) = some 44 := by decide +kernel

/-- 10.4: the default line timing record and the epoch record after power-on reset (R137, R153). -/
theorem test_read_line_timing : answer? (done (.readLineTiming 0xFFFF 1 1) base) = some (.ok, 0,
      le16 300 ++ le16 2000 ++ le16 300 ++ le16 1500 ++ le16 0 ++ le16 40 ++ [4, 3] ++ le16 50 ++ [8, 0]) ∧
    answer? (done (.readEpoch 0xFFFF 0 1) base) = some (.ok, 0, [0] ++ le32 100000 ++ le32 2000 ++ le32 100000) := by
  decide +kernel

/-- R11: SET of both flags on 10 to 14 changes PRIORITY of the three present robots. -/
theorem test_flags_set : answer? (done (.flagsSet 0xFFFF 10 14 3) base) = some (.ok, 0, [3, 0]) := by decide +kernel

/-- R11: CLEAR of a clear flag counts nothing. -/
theorem test_flags_clear : answer? (done (.flagsClear 0xFFFF 0 479 2) base) = some (.ok, 0, [0, 0]) := by decide +kernel

/-- R11: TOGGLE of ENABLE on robot 13 alone. -/
theorem test_flags_toggle :
    let t := done (.flagsToggle 0xFFFF 13 13 1) base
    answer? t = some (.ok, 0, [1, 0]) ∧ (t.robot 13).static.enable = false ∧ (t.robot 12).static.enable = true := by
  decide +kernel

/-- R87: an ABORT with no wave is refused NOWAVE (26). -/
theorem test_abort : answer? (done (.abort 0xFFFF) base) = some (.refused, 0, [26, 0, 0]) := by decide +kernel

/-- 11.8: WAVE_DONE pending with count 2, first detail 1 and last detail 2. -/
def wavesDone : State := { base with events := base.events.put .waveDone ⟨2, 1, 2⟩ }

/-- 11.8: TAKE returns class 10, count 2, details 1 and 2, with attention value 0. -/
theorem test_take : answer? (done (.take 0xFFFF) wavesDone) = some (.ok, 0, [10, 2, 1, 0, 2, 0]) := by decide +kernel

/-- R177: masking FLOW takes WAVE_DONE out of the attention value; a mask byte of 7 reads back 1. -/
theorem test_mask : answer? (done (.mask 0xFFFF 0 0 7 0) wavesDone) = some (.ok, 0, [0, 0, 1, 0]) ∧
    answer? (done (.mask 0xFFFF 0 0 0 0) wavesDone) = some (.ok, 10, [0, 0, 0, 0]) := by decide +kernel

/-- 10.5: the status record has 93 bytes, the count of WAVE_DONE at 89 and the attention value at 92. -/
theorem test_status : (answer? (done (.status 0xFFFF) wavesDone)).map
    (fun x => (x.2.2.length, x.2.2.getD 89 0, x.2.2.getD 92 0)) = some (93, 2, 10) := by decide +kernel

/-- R135: a LINE_RESET of line B with two entries listed counts them there and nowhere else. -/
theorem test_line_reset : answer? (done (.lineReset 0xFFFF 2)
      (base.modLine 1 fun e => { e with urgent := [⟨12, .halt⟩], normal := [⟨13, false, true, false⟩] })) =
    some (.ok, 0, [0, 0, 2, 0, 0, 0, 0, 0]) := by decide +kernel

/-- R170: RESET is answered OK and changes no robot until its reply has been sent. -/
theorem test_reset :
    let t := done (.reset 0xFFFF) base
    answer? t = some (.ok, 0, []) ∧ (t.robot 13).slot = .idle := by decide +kernel

/-- R19, R62: at the end of the reply of a RESET robot 13 is UNCERTAIN with outcome RESET, and zone 41 is BLOCKED. -/
theorem test_reply_sent_reset :
    let t := done .replySent (base.replying ⟨0xFFFF, 25, .ok, 0, []⟩)
    (t.robot 13).slot = .uncertain ∧ (t.robot 13).lastOutcome = .reset ∧ (t.zone 41).holder = .blocked ∧
      (t.line 1).haltPending = true := by decide +kernel

/-- The port of 8.7 in the middle of the READ's reply, with eight CANCELs queued. -/
def burst : State :=
  { moved with trunk := { moved.trunk with
      queue := [200, 201, 202, 203, 204, 205, 206, 207].map (fun d => bareFrame d 4)
      disp := .replying ⟨0xFFFF, 17, .ok, 0, []⟩ } }

/-- 8.7: a CANCEL at the full queue is discarded: overrun 1, TRUNK_ERROR 1. -/
theorem test_request_overrun :
    let t := done (.cancel 209) burst
    t.trunk.queue.length = 8 ∧ t.trunk.overrun = 1 ∧ (t.events.get .trunkError).count = 1 := by decide +kernel

/-- 8.7: at the end of the READ's reply the CANCEL for robot 200 is taken and seven frames stay; here no record is held. -/
theorem test_reply_sent :
    let t := done .replySent burst
    t.trunk.queue.length = 7 ∧ answer? t = some (.refused, 0, [27, 0, 0]) := by decide +kernel

/-- 8.7: a frame with a wrong CRC counts bad-check and TRUNK_ERROR once. -/
theorem test_frame_bad_crc :
    let t := done (.trunkFrameComplete 208 4 [] 0) { burst with trunk := { burst.trunk with rx := .frame } }
    t.trunk.queue.length = 8 ∧ t.trunk.badCheck = 1 ∧ (t.events.get .trunkError).count = 1 ∧ t.trunk.rx = .hunt := by
  decide +kernel

/-- R154: the length 513 sends the receiver to SKIP; 512 does not. -/
theorem test_length_oversize :
    let s := { base with trunk := { base.trunk with rx := .frame } }
    (done (.trunkLengthOversize 513) s).trunk.rx = .skip ∧ (done (.trunkLengthOversize 512) s).trunk.rx = .frame := by
  decide +kernel

/-- R156, R154: a gap leads from FRAME, quiet from SKIP, to HUNT; a start character from HUNT to FRAME. -/
theorem test_receiver :
    (done .trunkGapAbandon { base with trunk := { base.trunk with rx := .frame } }).trunk.gapAbandoned = 1 ∧
    (done .trunkSkipQuiet { base with trunk := { base.trunk with rx := .skip } }).trunk.rx = .hunt ∧
    (done .startCharacter base).trunk.rx = .frame := by decide +kernel

/-- R172: RESET_N low deasserts ATTN and loses the queue. -/
theorem test_reset_n : (done .resetNAssert burst).trunk.queue = [] ∧ attnOutput wavesDone = true ∧
    attnOutput (done .resetNAssert wavesDone) = false := by decide +kernel

/-- R18, R24: after power-on reset robot 13 is ABSENT. -/
theorem test_power_on : ((done .powerOnReset moved).robot 13).slot = .absent ∧ (done .powerOnReset moved).openWave = [] := by
  decide +kernel

/-- The timebase of 7.3 in TRACK mode, last restarted at a time. -/
def track (last : Nat) (counter : Word) : State :=
  { State.reset with epoch := { Epoch.reset with mode := .track, tLast := last, counter := counter } }

/-- 7.3: the expiry at 199 000 is the mark 502. -/
theorem test_epoch_mark :
    let t := done .epochMark (track 99000 501)
    t.epoch.counter = 502 ∧ t.epoch.tLast = 199000 ∧ t.epoch.tNext = 299000 := by decide +kernel

/-- 7.3: the pulse at 99 000 is early: mark 501, offset −1000, ALIGNED. -/
theorem test_epoch_pulse_early :
    let t := done (.epochPulse 99000) (track 0 500)
    t.epoch.counter = 501 ∧ t.epoch.tLast = 99000 ∧ t.epoch.offset.toInt = -1000 ∧ t.epoch.lock = .aligned := by
  decide +kernel

/-- 7.3: the pulse at 420 000 is out of window and later than half a period: mark 504, offset −10 000, SLIPPED. -/
theorem test_epoch_pulse_slipped :
    let t := done (.epochPulse 420000) (track 330000 503)
    t.epoch.counter = 504 ∧ t.epoch.tNext = 520000 ∧ t.epoch.offset.toInt = -10000 ∧ t.epoch.lock = .slipped ∧
      (t.events.get .epochSlip).count = 1 := by decide +kernel

/-! ### The waves of 11.4 to 11.9 -/

/-- Member 13 of wave 1 (11.4). -/
def member13 : Member :=
  { robot := 13, line := 1, drop := 6, kind := .goto, profile := 1
    plan := ⟨some (spot 60000 150000), spot (-120000) 140000,
      .segment ⟨true, true, 18000, 6553600, 0, 364088, 16000⟩⟩
    grace := 500, homeLimit := 60000, rest := .idle, delivery := .accepted, late := false, clearLineReset := false,
    outcome := .none, reason := .none, goTime := none, deadline := none, remaining := 0, stop := .none }

/-- Member 12 of wave 1 (11.4). -/
def member12 : Member :=
  { member13 with
    robot := 12, drop := 5
    plan := ⟨some (spot 0 60000), spot 60000 100000, .segment ⟨false, false, 6000, 6553600, 0, 4369066, 4000⟩⟩ }

/-- Wave 1 in a state, with its members. -/
def wave1 (st : WaveState) (ms : List Member) : Wave :=
  { number := 1, state := st, origin := .request, startMark := 4003, lead := 3, chainRemaining := 1, chainLead := 2,
    counts := ⟨2, 1, 0, 0⟩, members := ms }

/-- The neighbourhood with wave 1: robots 12 and 13 in slot states, both zones MOVING(13), robot 14 deferred. -/
def waving (st : WaveState) (a b : SlotState) (m13 m12 : Member) : State :=
  let s := { base with wave := some (wave1 st [m13, m12]), waveCounter := 1, deferred := [⟨goto 14 (-120000) 140000, 1⟩] }
  let s := (s.setSlot 13 a).setSlot 12 b
  (s.setZone 40 ⟨some 12, some 13, .moving 13, false, false⟩).setZone 41 ⟨some 13, some 14, .moving 13, false, false⟩

/-- A transaction for drop 6 with the default timing record. -/
def txn (k : TxnKind) (b : Option Body) (p : Phase) : Txn :=
  { kind := k, body := b, drop := 6, timing := Timing.reset, calls := 1, bodies := 0, phase := p, stale := false }

/-- Line B carries a transaction. -/
def onLine (s : State) (x : Txn) : State := s.modLine 1 fun e => { e with state := .awaiting, txn := some x }

/-- Wave 1 with both members LISTED (11.4). -/
def listed : State :=
  (waving .arming .arming .arming { member13 with delivery := .listed } { member12 with delivery := .listed }).modLine 1
    fun e => { e with normal := [⟨13, true, false, false⟩, ⟨12, true, false, false⟩] }

/-- 11.5: the arbiter starts DELIVER 13 at the quiet gap, with a call to drop 6; the member becomes IN_FLIGHT. -/
theorem test_arbiter :
    let t := done (.lineArbiterChoose 1 40) listed
    (t.line 1).state = .calling ∧ t.members.map Member.delivery = [.inFlight, .listed] ∧
      (t.line 1).wireFrame = some (FrameKind.frame 6 .call) ∧
      (t.line 1).normal.map NormalEntry.robot = [12] := by decide +kernel

/-- R122: a quiet time one microsecond short of T_GAP starts nothing. -/
theorem test_arbiter_gap : ((done (.lineArbiterChoose 1 39) listed).line 1).state = .idle := by decide +kernel

/-- 11.5: mark 4003 starts wave 1, and line B gets the GO of wave 1 with excluded drop 0. -/
theorem test_start :
    let s := waving .armed .armed .armed member13 member12
    let t := done .epochMark { s with epoch := { s.epoch with counter := 4002 } }
    t.wave.map Wave.state = some .running ∧ (t.line 1).goPending = some ⟨1, 0⟩ ∧ (t.line 0).goPending = none ∧
      (t.events.get .waveLate).count = 0 := by decide +kernel

/-- 11.5: at GO time g both robots move, with deadlines g + 18 500 ms and g + 6 500 ms and first polls at g + 50 ms. -/
theorem test_broadcast_sent :
    let s := onLine (waving .running .armed .armed member13 member12) (txn (.go ⟨1, 0⟩) none (.sending (.go ⟨1, 0⟩)))
    let t := done (.broadcastSent 1 1000) s
    t.members.map (fun m => (m.deadline, m.remaining)) = [(some 18501000, 18000), (some 6501000, 6000)] ∧
      (t.line 1).cycle = [⟨13, 51000⟩, ⟨12, 51000⟩] ∧ (t.robot 13).slot = .moving := by decide +kernel

/-- Wave 1 running with both robots MOVING, polled at line B (11.6). -/
def polled (r : RobotNo) : State :=
  onLine (waving .running .moving .moving { member13 with deadline := some 18500000 } { member12 with deadline := some 6500000 })
    (txn (.poll r) none (.waiting .poll 0))

/-- 11.6: robot 13's poll answers MOVING with 17 951 remaining intervals, which its member stores. -/
theorem test_poll_moving :
    let t := done (.answerPoll 1 300 2 0 0 1 17951) (polled 13)
    (t.robot 13).slot = .moving ∧ t.members.map Member.remaining = [17951, 0] := by decide +kernel

/-- 11.6: robot 12 arrives: its start is pushed, it is IDLE at its target, and zone 40 keeps MOVING(13). -/
theorem test_poll_arrived :
    let t := done (.answerPoll 1 300 4 1 0 1 0) (polled 12)
    (t.robot 12).slot = .idle ∧ (t.robot 12).believed = spot 60000 100000 ∧
      (t.robot 12).stack = [spot 0 60000, Position.zero] ∧ (t.zone 40).holder = .moving 13 := by decide +kernel

/-- Wave 1 with robot 12 arrived and robot 13 polled at counter 4183 (11.6). -/
def last13 : State :=
  let s := onLine (waving .running .moving .idle member13 { member12 with outcome := .arrived })
    (txn (.poll 13) none (.waiting .poll 0))
  let s := s.modRobot 12 fun b => { b with believed := spot 60000 100000 }
  { s with epoch := { s.epoch with counter := 4183 } }

/-- 11.6, 11.7: robot 13 arrives; zone 40 is PARKED(13), WAVE_DONE is raised, and the chain admits robot 14 to wave 2 with
start mark 4185. -/
theorem test_chain :
    let t := done (.answerPoll 1 300 4 1 0 1 0) last13
    (t.zone 40).holder = .parked 13 ∧ (t.zone 41).holder = .moving 14 ∧ t.events.get .waveDone = ⟨1, 1, 1⟩ ∧
      t.wave.map (fun w => (w.number, w.state, w.startMark, w.chainRemaining)) = some (2, .arming, 4185, 0) ∧
      t.members.map (fun m => (m.robot, m.plan.body)) =
        [(14, .segment ⟨true, false, 12000, 6553600, 0, 4369066, 8000⟩)] ∧
      (t.line 1).normal = [⟨14, true, false, false⟩] := by decide +kernel

/-- 11.9: robot 13 answers STALLED with fault code 12: zones 40 and 41 BLOCKED, robot 14 deferred again with count 2, and
STALL, CHAIN_STUCK and WAVE_DONE pending with attention value 3. -/
theorem test_stall :
    let t := done (.answerPoll 1 300 5 0 12 1 0) last13
    (t.robot 13).slot = .uncertain ∧ (t.robot 13).fault = 12 ∧ (t.zone 40).holder = .blocked ∧
      (t.zone 41).holder = .blocked ∧ t.deferred.map Deferral.count = [2] ∧ t.events.get .stall = ⟨1, 13, 13⟩ ∧
      t.events.get .chainStuck = ⟨1, 1, 1⟩ ∧ t.events.get .waveDone = ⟨1, 1, 1⟩ ∧ t.events.attention = 3 := by
  decide +kernel

/-! ### Exchanges -/

/-- Wave 1 with member 13 IN_FLIGHT and member 12 LISTED, line B in a phase of DELIVER 13. -/
def delivering (p : Phase) : State :=
  onLine (waving .arming .arming .arming { member13 with delivery := .inFlight } { member12 with delivery := .listed })
    (txn (.deliver 13) (some member13.plan.body) p)

/-- The transaction of `delivering`. -/
def deliverTxn (p : Phase) : Txn := txn (.deliver 13) (some member13.plan.body) p

/-- R131: the wait for an answer begins with the last character of the call. -/
theorem test_line_frame_sent : ((done (.lineFrameSent 1 500) (delivering (.sending .call))).line 1).txn =
    some (deliverTxn (.waiting .call 500)) := by decide +kernel

/-- R126, 11.5: READY to the call leads to the segment body of robot 13 after the quiet gap. -/
theorem test_ready : ((done (.answerReady 1 500) (delivering (.waiting .call 300))).line 1).txn =
    some (deliverTxn (.gap (.body member13.plan.body) 0)) := by decide +kernel

/-- R126: NOT-READY to the first call leads to another call, not before T_BODY (2000) has passed. -/
theorem test_not_ready : ((done (.answerNotReady 1 500) (delivering (.waiting .call 300))).line 1).txn =
    some (deliverTxn (.gap .call 2500)) := by decide +kernel

/-- R126, R138: the second call goes out when T_BODY has passed, and counts as a retry. -/
theorem test_next_frame :
    let t := done (.nextFrameSend 1 2500) (delivering (.gap .call 2500))
    (t.line 1).txn.map (fun x => (x.calls, x.phase)) = some (2, .sending .call) ∧ (t.line 1).counters.retries = 1 := by
  decide +kernel

/-- R76: ACCEPT makes the member ACCEPTED and robot 13 ARMED; member 12 still LISTED keeps the wave ARMING. -/
theorem test_accept :
    let t := done (.answerAccept 1 500) (delivering (.waiting (.body member13.plan.body) 300))
    (t.robot 13).slot = .armed ∧ t.members.map Member.delivery = [.accepted, .listed] ∧
      t.wave.map Wave.state = some .arming ∧ (t.line 1).state = .idle := by decide +kernel

/-- R127: RETRY to the body, none used, leads to the body again. -/
theorem test_retry : ((done (.answerRetry 1 500) (delivering (.waiting (.body member13.plan.body) 300))).line 1).txn =
    some (deliverTxn (.gap (.body member13.plan.body) 0)) := by decide +kernel

/-- R76: REFUSE makes the member MISSED with reason REFUSED, and robot 13 is IDLE again with the fault code stored. -/
theorem test_refuse :
    let t := done (.answerRefuse 1 500 9) (delivering (.waiting (.body member13.plan.body) 300))
    (t.robot 13).slot = .idle ∧ (t.robot 13).fault = 9 ∧ (t.robot 13).lastOutcome = .missed ∧
      (t.robot 13).lastReason = .refused ∧ (t.zone 41).holder = .parked 13 := by decide +kernel

/-- R130: END goes out after the quiet gap. -/
theorem test_end_frame : ((done (.endFrameSend 1 40) (delivering (.gap .endFrame 0))).line 1).txn =
    some (deliverTxn (.sending .endFrame)) := by decide +kernel

/-- R77: the end of END makes the member CLEARING, robot 13 STOPPING, and lists a CLEAR. -/
theorem test_end_sent :
    let t := done (.endSent 1 500) (delivering (.sending .endFrame))
    (t.robot 13).slot = .stopping ∧ t.members.map Member.delivery = [.clearing, .listed] ∧
      (t.line 1).urgent = [⟨13, .clear⟩] ∧ (t.line 1).state = .idle := by decide +kernel

/-- R132, R138: an answer with a wrong CRC is garbled and the call is sent again. -/
theorem test_garbled :
    let t := done (.answerGarbled 1 500 [0x3C, 6, 0x81, 0, 0, 0]) (delivering (.waiting .call 300))
    (t.line 1).counters.garbled = 1 ∧ (t.line 1).txn = some (deliverTxn (.gap .call 0)) := by decide +kernel

/-- R131: silence ends the wait at T_CALL (300), not before; it counts a timeout. -/
theorem test_silence :
    (done (.answerWaitSilence 1 599) (delivering (.waiting .call 300))).line 1 = (delivering (.waiting .call 300)).line 1 ∧
    ((done (.answerWaitSilence 1 600) (delivering (.waiting .call 300))).line 1).silence = 1 := by decide +kernel

/-- R134, R113: the eighth silent wait takes line B DOWN and loses both members. -/
theorem test_line_down :
    let t := done (.answerWaitSilence 1 600) ((delivering (.waiting .call 300)).modLine 1 fun e => { e with silence := 7 })
    (t.line 1).state = .down ∧ (t.robot 13).lastOutcome = .lost ∧ (t.robot 12).lastOutcome = .lost ∧
      t.events.get .lineDown = ⟨1, 1, 1⟩ ∧ (t.events.get .lost).count = 0 := by decide +kernel

/-- R131: the first character ends the wait; a gap in the answer garbles it. -/
theorem test_begun : ((done (.answerBegun 1 400) (delivering (.waiting .call 300))).line 1).txn =
      some (deliverTxn (.receiving .call 300)) ∧
    ((done (.answerCharGap 1 500) (delivering (.receiving .call 300))).line 1).counters.garbled = 1 := by decide +kernel

/-- A READ of robot 13 for a REFRESH waits for its answer, no wave held. -/
def reading (p : Phase) : State := onLine base (txn (.read 13 true false) none p)

/-- R112: robot 13 reported elsewhere than its believed steps is UNCERTAIN with DRIFT; at them it stays IDLE. -/
theorem test_status_answer :
    let s := reading (.waiting .readRequest 0)
    let t := done (.answerStatus 1 500 0 0 0 0 600001 1500000) s
    (t.robot 13).slot = .uncertain ∧ (t.robot 13).lastReason = .drift ∧
      ((done (.answerStatus 1 500 0 0 0 0 600000 1500000) s).robot 13).slot = .idle := by decide +kernel

/-- R131: an answer to a READ still incomplete at T_READ (1500) is garbled. -/
theorem test_read_deadline :
    ((done (.readAnswerDeadline 1 1500) (reading (.receiving .readRequest 0))).line 1).counters.garbled = 1 ∧
    ((done (.readAnswerDeadline 1 1499) (reading (.receiving .readRequest 0))).line 1).counters.garbled = 0 := by
  decide +kernel

/-- R122: a stray character starts the quiet time of its line again. -/
theorem test_stray : ((done (.strayCharacter 1 700) base).line 1).lastChar = 700 ∧
    ((done (.strayCharacter 1 700) base).line 0).lastChar = 0 := by decide +kernel

/-- R77, R120: a failed DELIVER of a member that no ABORT has touched leaves a REFRESH's READ listed. -/
theorem test_refresh_kept :
    ((done (.endSent 1 500) ((delivering (.sending .endFrame)).modLine 1 fun e =>
      { e with normal := [⟨13, false, true, false⟩] })).line 1).normal = [⟨13, false, true, false⟩] := by decide +kernel

/-- R74, R79: the last member of an ARMING wave decided by its read-back ends CLOSED, and the wave is ARMED. -/
theorem test_closed_before_go :
    let s := onLine (waving .arming .stopping .armed { member13 with stop := .read 1 } member12)
      (txn (.read 13 false true) none (.waiting .readRequest 0))
    let t := done (.answerStatus 1 500 0 0 0 0 600000 1500000) s
    t.members.map Member.delivery = [.closed, .accepted] ∧ (t.robot 13).lastOutcome = .haltedAtStart := by decide +kernel

/-- R136: a garbled answer to a transaction that a LINE_RESET abandoned in its wait is counted by the line. -/
theorem test_residue_counted :
    let s := done (.lineReset 0xFFFF 2) (reading (.waiting .readRequest 0))
    ((done (.answerGarbled 1 1200 [0x3C, 6, 0]) s).line 1).counters.garbled = 1 := by decide +kernel

/-- R91, R92: a robot 16 intervals into robot 37's segment of 594 has 578 remaining, stalled or not; halted it still reports
MOVING, with none remaining, until it has slowed. -/
theorem test_robot_remaining :
    let u := { RobotUnit.powerUp 6 with
      state := .moving, body := some (.segment ⟨false, true, 594, 1, 0, 1, 0⟩), started := true, count := 16 }
    u.remaining = 578 ∧ (u.stalls 12).remaining = 578 ∧ u.halted.state = .moving ∧ u.halted.remaining = 0 ∧
      (u.halted.slows (5, 7) true).state = .idle := by decide +kernel

/-- R103: at its deadline robot 12 is STOPPING with a HALT single listed; a microsecond before, nothing happens. -/
theorem test_overrun :
    let t := done (.overrunDeadline 12 6500000) (polled 13)
    (t.robot 12).slot = .stopping ∧ (t.line 1).urgent = [⟨12, .halt⟩] ∧
      ((done (.overrunDeadline 12 6499999) (polled 13)).robot 12).slot = .moving := by decide +kernel

/-- 10.7: the GO of wave 1 with excluded drop 6 on the wire, without its CRC. -/
theorem test_go_frame : (FrameKind.frame 127 (.go ⟨1, 6⟩)) = ⟨127, 9, [1, 0, 6]⟩ := by decide +kernel

/-- 10.7: a READY answer from drop 6 is read back from its bytes. -/
theorem test_read_answer : readAnswer 6 (Answer.bytes 6 .ready) = some .ready ∧
    readAnswer 7 (Answer.bytes 6 .ready) = none := by decide +kernel

/-- No word spells a command: the table gives no bits (log entry 3). -/
theorem test_no_words : decodeTableWord 8 0 = none ∧ (State.reset.withFetchWord 8 0).pending = [] := by decide +kernel

/-! ### Well-formedness: what each check refuses -/

/-- A LOAD of 508 record bytes does not fit behind its header; one of 507 does. -/
theorem test_wf_loads :
    WellFormed.wf (.loadRobot 0xFFFF 0 1 (List.replicate 508 0)) = false ∧
    WellFormed.wf (.loadCurve 0xFFFF 0 1 (List.replicate 508 0)) = false ∧
    WellFormed.wf (.loadProfile 0xFFFF 0 1 (List.replicate 508 0)) = false ∧
    WellFormed.wf (.loadZone 0xFFFF 0 1 (List.replicate 508 0)) = false ∧
    WellFormed.wf (.loadLineTiming 0xFFFF 0 1 (List.replicate 508 0)) = false ∧
    WellFormed.wf (.loadEpoch 0xFFFF 0 1 (List.replicate 508 0)) = false ∧
    WellFormed.wf (.loadRobot 0xFFFF 0 1 (List.replicate 507 0)) = true := by decide +kernel

/-- A payload of 513 bytes cannot complete, and a length of 512 is not oversize. -/
theorem test_wf_trunk :
    WellFormed.wf (.trunkFrameComplete 0 1 (List.replicate 513 0) 0) = false ∧
    WellFormed.wf (.trunkLengthOversize 512) = false ∧ WellFormed.wf (.trunkLengthOversize 513) = true := by decide +kernel

/-- A state code of 7 is no answer, and an answer that has begun holds a byte. -/
theorem test_wf_answers :
    WellFormed.wf (.answerPoll 0 0 7 0 0 0 0) = false ∧ WellFormed.wf (.answerStatus 0 0 7 0 0 0 0 0) = false ∧
    WellFormed.wf (.answerGarbled 0 0 []) = false ∧ WellFormed.wf (.answerPoll 0 0 6 0 0 0 0) = true := by decide +kernel

/-! ### Witnesses: states and operands that meet the hypotheses of each statement, clause by clause -/

/-- A property of the wave held, from its value. -/
theorem of_wave {s : State} {v : Wave} {P : Wave → Prop} (h : s.wave = some v) (hp : P v) : ∀ w, s.wave = some w → P w := by
  intro w hw
  rw [h] at hw
  cases hw
  exact hp

/-- Any property of the wave held, when none is held. -/
theorem of_no_wave {s : State} {P : Wave → Prop} (h : s.wave = none) : ∀ w, s.wave = some w → P w := by
  intro w hw
  rw [h] at hw
  cases hw

theorem ready_base : Ready base := by unfold Ready; decide +kernel
theorem ready_moved : Ready moved := by unfold Ready; decide +kernel
theorem ready_wavesDone : Ready wavesDone := by unfold Ready; decide +kernel
theorem ready_calibrated : Ready calibrated := by unfold Ready; decide +kernel
theorem ready_listed : Ready listed := by unfold Ready; decide +kernel
theorem ready_polled : Ready (polled 13) := by unfold Ready; decide +kernel

/-- `moved` with a robot of it changed. -/
def changed (r : RobotNo) (f : Robot → Robot) : State := base.modRobot r f

theorem ready_changed (r : RobotNo) (f : Robot → Robot) : Ready (changed r f) := ready_base

theorem witness_StepRunsTheFrontCommand :
    ({ base with pending := [.take 0xFFFF, .epochMark] } : State).pending = .take 0xFFFF :: [.epochMark] ∧
      base.pending = [] := by decide +kernel

theorem witness_ResetHeldLow : base.resetLow = false ∧ (done .resetNAssert base).resetLow = true ∧
    Instr.startCharacter ≠ .powerOnReset := by decide +kernel

/-- A step from a state with robots, zones, moves and a running wave: a poll is answered. -/
def stepping : State := { polled 13 with pending := [.answerPoll 1 300 2 0 0 1 17951], openWave := [goto 12 0 0] }

theorem witness_step : ∃ t, step stepping = .next t := ⟨_, rfl⟩

theorem witness_StepsKeepRangesAndCapacities :
    EventsOk stepping.events ∧ TrunkOk stepping.trunk ∧ DeferredOk stepping.deferred := by
  refine ⟨?_, ?_, ?_⟩
  · intro c
    cases c <;> · unfold EventRec.ok; decide +kernel
  · unfold TrunkOk; decide +kernel
  · unfold DeferredOk; decide +kernel

theorem witness_TablesOk : TablesOk stepping := by
  refine ⟨?_, ?_, ?_, ?_⟩
  · intro c i
    have h : stepping.curves[c][i] = 0 := by
      show (Vector.replicate 256 (Vector.replicate 17 (0 : Half)))[c][i] = 0
      simp
    rw [h]
    decide
  · unfold ProfileOk; decide +kernel
  · unfold TimingOk; decide +kernel
  · unfold EpochOk; decide +kernel

/-- The robots of `stepping` other than 12, 13 and 14 are as after reset. -/
theorem stepping_other (r : RobotNo) : r = 12 ∨ r = 13 ∨ r = 14 ∨ stepping.robot r = Robot.reset := by
  by_cases h12 : r = 12
  · exact .inl h12
  by_cases h13 : r = 13
  · exact .inr (.inl h13)
  by_cases h14 : r = 14
  · exact .inr (.inr (.inl h14))
  have n12 : ¬(12 : RobotNo).val = r.val := fun h => h12 (Fin.ext h.symm)
  have n13 : ¬(13 : RobotNo).val = r.val := fun h => h13 (Fin.ext h.symm)
  have n14 : ¬(14 : RobotNo).val = r.val := fun h => h14 (Fin.ext h.symm)
  refine .inr (.inr (.inr ?_))
  simp only [stepping, polled, onLine, waving, base, State.modLine, State.setLine, State.setZone, State.setSlot,
    State.modRobot, State.setRobot, State.robot, State.reset, Fin.getElem_fin, Vector.getElem_set, n12, n13, n14, if_false,
    Vector.getElem_replicate]

theorem witness_StepsKeepTheRobotTable : RobotsOk stepping ∧ AddressesOk stepping ∧ LinksOk stepping := by
  refine ⟨?_, ?_, ?_⟩
  · intro r
    rcases stepping_other r with rfl | rfl | rfl | h
    · unfold RobotOk StaticOk; decide +kernel
    · unfold RobotOk StaticOk; decide +kernel
    · unfold RobotOk StaticOk; decide +kernel
    · rw [h]; unfold RobotOk StaticOk; decide +kernel
  · intro r q hr hq hl hd
    rcases stepping_other r with rfl | rfl | rfl | h <;> rcases stepping_other q with rfl | rfl | rfl | k <;>
      first
        | rfl
        | (revert hd; decide +kernel)
        | (rw [h] at hr; cases hr)
        | (rw [k] at hq; cases hq)
  · intro r hr
    rcases stepping_other r with rfl | rfl | rfl | h
    · decide +kernel
    · decide +kernel
    · decide +kernel
    · rw [h] at hr; cases hr

theorem witness_StepsKeepMovesAndMembers : MovesOk stepping ∧ PresenceOk stepping ∧ MembersOk stepping := by
  refine ⟨?_, ?_, ?_, ?_⟩
  · unfold MovesOk; decide +kernel
  · intro r
    rcases stepping_other r with rfl | rfl | rfl | h
    · decide +kernel
    · decide +kernel
    · decide +kernel
    · rw [h]; decide +kernel
  · intro r
    by_cases h12 : r = 12
    · subst h12; decide +kernel
    by_cases h13 : r = 13
    · subst h13; decide +kernel
    have hm : stepping.member? r = none := by
      have hu : stepping.undecidedMembers.map Member.robot = [13, 12] := by decide +kernel
      refine List.find?_eq_none.2 fun m hm => ?_
      have : m.robot ∈ stepping.undecidedMembers.map Member.robot := List.mem_map_of_mem hm
      rw [hu] at this
      simp only [List.mem_cons, List.not_mem_nil, or_false] at this
      rcases this with e | e <;> simp [e, Ne.symm h12, Ne.symm h13]
    rw [hm]
    rcases stepping_other r with rfl | rfl | rfl | h
    · exact absurd rfl h12
    · exact absurd rfl h13
    · decide +kernel
    · rw [h]; decide +kernel
  · exact of_wave (v := _) rfl (by decide +kernel)

theorem witness_StepsKeepListsUniqueAndWavesOpen : ListsOk stepping ∧ WaveOpen stepping := by
  refine ⟨?_, ?_⟩
  · unfold ListsOk; decide +kernel
  · exact of_wave (v := _) rfl (by decide +kernel)

/-- A LOAD whose payload is the largest, 512 bytes; the queue with 7 and with 8 frames. -/
theorem witness_RequestCommandIsItsFrame :
    (∃ f, requestFrame (.loadCurve 0xFFFF 0 1 (List.replicate 507 0)) = some f ∧ f.payload.length = 512) ∧
      burst.resetLow = false ∧ burst.trunk.rx ≠ .skip ∧ burst.trunk.disp = .replying ⟨0xFFFF, 17, .ok, 0, []⟩ ∧
      burst.trunk.queue.length = 8 ∧
      ({ base.trunk with rx := .frame } : Trunk).rx = .frame := by
  exact ⟨⟨_, rfl, by decide +kernel⟩, by decide +kernel⟩

/-- `base` in the middle of a frame. -/
def framing : State := { base with trunk := { base.trunk with rx := .frame } }

/-- Frames of `framing`: a bad CRC; one fault of each check, at the last good value's neighbour; one that passes. -/
theorem witness_FramesAreChecked :
    framing.resetLow = false ∧ framing.trunk.rx = .frame ∧ framing.trunk.disp = .waiting ∧ framing.trunk.queue = [] ∧
      (0 : Half) ≠ crc (Frame.checked ⟨13, 7, []⟩) ∧
      frameFault ⟨13, 8, []⟩ = some .kind ∧ frameFault ⟨480, 7, []⟩ = some .dest ∧ frameFault ⟨0xFFFF, 7, []⟩ = some .dest ∧
      frameFault ⟨479, 23, []⟩ = some .dest ∧ frameFault ⟨13, 7, [0]⟩ = some .length ∧
      frameFault ⟨0xFFFF, 16, [0, 0, 0, 0]⟩ = some .length ∧
      frameFault ⟨479, 7, []⟩ = none ∧ frameFault ⟨0xFFFF, 16, [0, 0, 0, 0, 0]⟩ = none ∧
      6 < (7 : Byte).toNat ∧ 10 < (11 : Byte).toNat ∧ 3 < (4 : Byte).toNat := by decide +kernel

/-- R11, R165, R167: the kinds just beyond the loadable, the readable and the FLAGS operations are answered ERROR (KIND), code 33. -/
theorem test_undefined_kinds :
    let reply := fun f : Frame => answer? (done (.trunkFrameComplete f.dest f.kind f.payload (crc f.checked)) framing)
    reply (readFrame 0xFFFF 10 0 1) ≠ some (.error, 0, [33]) ∧
      reply (readFrame 0xFFFF 11 0 1) = some (.error, 0, [33]) ∧
      reply (loadFrame 0xFFFF 7 0 1 []) = some (.error, 0, [33]) ∧
      reply (flagsFrame 0xFFFF 0 0 4 1) = some (.error, 0, [33]) := by decide +kernel

/-- The part in FRAME, HUNT and SKIP, and the first length that is too long. -/
theorem witness_ReceiverMoves : framing.resetLow = false ∧ framing.trunk.rx = .frame ∧ base.resetLow = false ∧
    base.trunk.rx = .hunt ∧ ({ base with trunk := { base.trunk with rx := .skip } } : State).resetLow = false ∧
    512 < (513 : Half).toNat := by decide +kernel

theorem witness_ReplyEndsAndNextIsTaken :
    burst.trunk.disp = .replying ⟨0xFFFF, 17, .ok, 0, []⟩ ∧ burst.trunk.queue ≠ [] ∧
      (done (.take 0xFFFF) base).trunk.queue = [] ∧
      (done (.take 0xFFFF) base).trunk.disp = .replying ⟨0xFFFF, 21, .ok, 0, List.replicate 6 0⟩ := by decide +kernel

/-- `base` with what an abandoned transaction left on line B. -/
def left (ρ : Residue) : State := base.modLine 1 fun e => { e with residue := some ρ }

/-- The OK of a RESET going out, with a transaction on line B in each phase, and with what an abandoned one left. -/
theorem witness_ControllerResetResult : Ready base ∧
    (done (.reset 0xFFFF) base).trunk.disp = .replying ⟨0xFFFF, 25, .ok, 0, []⟩ ∧
    ((done (.reset 0xFFFF) base).robot 13).slot ≠ .absent ∧ ((done (.reset 0xFFFF) base).robot 11).slot = .absent ∧
    (∀ p ∈ [Phase.gap .call 0, .sending .call, .waiting .call 300, .receiving .call 300],
      ((delivering p).line 1).residue = none ∧ ((delivering p).line 1).txn = some (deliverTxn p)) ∧
    ((left ⟨deliverTxn (.sending .call), true⟩).line 1).residue = some ⟨deliverTxn (.sending .call), true⟩ :=
  ⟨ready_base, by decide +kernel⟩

theorem witness_MoversAreTested : Ready base ∧ 16 ≤ (16 : Byte).toNat ∧ (15 : Byte).toNat < 16 ∧
    (base.robot 11).slot = .absent ∧ (changed 13 fun b => { b with static := { b.static with enable := false } }).resetLow = false ∧
    ((changed 13 fun b => { b with static := { b.static with enable := false } }).robot 13).slot ≠ .absent ∧
    ((changed 13 fun b => { b with static := { b.static with enable := false } }).robot 13).static.enable = false :=
  ⟨ready_base, by decide +kernel⟩

/-- Robot 13 fenced out of 0 to 10, and with an offset that leaves 32 bits beside it. -/
def fenced : State := changed 13 fun b =>
  { b with static := { b.static with fenceMode := .inside, fs := 0, fe := 10, offHub := 2147483647 } }

theorem witness_MoveOutcome : Ready fenced ∧ (fenced.robot 13).slot ≠ .absent ∧ (fenced.robot 13).static.enable = true ∧
    forbidden (fenced.robot 13).static 10 = true ∧ forbidden (fenced.robot 13).static 11 = false ∧
    2147483647 < (targetSteps fenced (fenced.robot 13).static ⟨11, 0⟩).1 ∧
    (targetSteps fenced (fenced.robot 13).static ⟨int (-1), 0⟩).1 ≤ 2147483647 :=
  ⟨ready_changed _ _, by decide +kernel⟩

theorem witness_RetraceAndHomeOutcome : Ready base ∧ (base.robot 13).slot ≠ .absent ∧
    (base.robot 13).static.enable = true ∧ (base.robot 13).stack ≠ [] ∧
    ((changed 13 fun b => { b with stack := [] }).robot 13).stack = [] := ⟨ready_base, by decide +kernel⟩

/-- `base` with a deferred entry for robot 14. -/
def deferring : State := { base with deferred := [⟨goto 14 0 0, 7⟩] }

theorem witness_CancelOutcome : Ready moved ∧ Ready deferring ∧
    (∀ x ∈ moved.openWave, x.robot = 13 → x = goto 13 (-120000) 140000) ∧
    goto 13 (-120000) 140000 ∈ moved.openWave ∧
    (∀ y ∈ deferring.deferred, y.record.robot = 14 → y = ⟨goto 14 0 0, 7⟩) ∧
    (∀ m ∈ deferring.openWave, m.robot ≠ 14) ∧ (∀ x ∈ deferring.deferred, x.record.robot ≠ 13) ∧
    (∀ m ∈ deferring.openWave, m.robot ≠ 13) :=
  ⟨ready_moved, ready_base, by decide +kernel⟩

theorem witness_HaltAndRefreshOutcome : Ready (polled 13) ∧ ((polled 13).robot 11).slot = .absent ∧
    ((polled 13).robot 13).slot = .moving ∧ ((polled 13).line 1).state ≠ .down ∧
    (∃ m ∈ (polled 13).members, m.robot = 13 ∧ m.outcome = .none) ∧ ((polled 13).robot 14).slot = .idle ∧
    ((base.modLine 1 fun e => { e with state := .down }).line 1).state = .down :=
  ⟨ready_polled, by decide +kernel⟩

/-- Robots absent and present; a member of an active wave, and a robot with none. -/
theorem witness_ReportAndStatus : Ready base ∧ (base.robot 11).slot = .absent ∧ (base.robot 13).slot ≠ .absent ∧
    Ready (polled 13) ∧ ((polled 13).robot 13).slot = .moving ∧
    (polled 13).wave.map (fun w => (w.state, (w.members.find? fun q => q.robot = 13).map Member.robot)) =
      some (.running, some 13) ∧
    (∀ m ∈ (polled 13).members, m.robot ≠ 14) ∧ ((polled 13).robot 14).slot ≠ .absent ∧ (0 : Nat) < 4 ∧ (3 : Nat) < 4 :=
  ⟨ready_base, by decide +kernel, by decide +kernel, ready_polled, by decide +kernel⟩

/-- Runs that end at their table's end, and the payload of a REPORT. -/
theorem witness_ReadsAnswer : Ready base ∧ (479 : Half).toNat + (1 : Half).toNat ≤ 480 ∧
    (1023 : Half).toNat + (1 : Half).toNat ≤ 1024 ∧ (0 : Nat) < (1 : Half).toNat ∧
    ∃ P, exec (.report (halfOf (13 : RobotNo).val)) base = .next (base.answer (halfOf (13 : RobotNo).val) 7 .ok P) :=
  ⟨ready_base, by decide +kernel, by decide +kernel, by decide +kernel, ⟨_, rfl⟩⟩

theorem witness_LoadsAreChecked : Ready base ∧ (List.replicate 507 (0 : Byte)).length + 5 ≤ 512 ∧
    480 < (480 : Half).toNat + (1 : Half).toNat ∧ (479 : Half).toNat + (1 : Half).toNat ≤ 480 ∧
    (List.replicate 151 (0 : Byte)).length ≠ (1 : Half).toNat * 152 := ⟨ready_base, by decide +kernel⟩

theorem witness_ClampingLoads : Ready base ∧ (1 : Half).toNat ≠ 0 ∧ (255 : Half).toNat + (1 : Half).toNat ≤ 256 ∧
    (List.replicate 34 (0 : Byte)).length = (1 : Half).toNat * 34 ∧ (15 : Half).toNat + (1 : Half).toNat ≤ 16 ∧
    (List.replicate 12 (0 : Byte)).length = (1 : Half).toNat * 12 ∧ (3 : Half).toNat + (1 : Half).toNat ≤ 4 ∧
    (List.replicate 18 (0 : Byte)).length = (1 : Half).toNat * 18 ∧ (List.replicate 13 (0 : Byte)).length = 13 ∧
    epochMode? 2 = some .once ∧ epochMode? 3 = none := ⟨ready_base, by decide +kernel⟩

/-- A record that every test of R5 passes at robot 479: line A, drop 120. -/
def fresh : RobotStatic := { (neighbour 120 [] 0 0).static with line := 0 }

/-- A load of one record over robot 479, and one over robot 13 in a wave. -/
theorem witness_RobotLoad : Ready base ∧ Ready listed ∧ (479 : Half).toNat + (1 : Half).toNat ≤ 480 ∧
    (robotBytes fresh).length = (1 : Half).toNat * 152 ∧
    (∀ r : RobotNo, 479 ≤ r.val ∧ r.val < 480 → (base.robot r).slot.inWave = false) ∧
    robotRangeFault base 479 1 [] 479 ((recordsOf (robotBytes fresh) 152 1).map rawRobot) = none ∧
    robotRangeFault base 479 1 [] 479 ((recordsOf (robotBytes { fresh with drop := 121 }) 152 1).map rawRobot) =
      some (.badAddr, 479) ∧
    (listed.robot 13).slot.inWave = true :=
  ⟨ready_base, ready_listed, by decide +kernel⟩

/-- A record for each test of R5 and its failure, at the first value outside its range. -/
theorem witness_RobotLoad_tests :
    let raw := fun b : RobotStatic => rawRobot (robotBytes b)
    (raw RobotStatic.absent).present = false ∧ (raw fresh).present = true ∧ (raw fresh).line.toNat ≤ 3 ∧
    (raw fresh).drop = 120 ∧ 120 < (raw { fresh with drop := 128 }).drop.toNat ∧
    ((base.robot 13).static.present = true ∧ (base.robot 13).static.line.val = (raw { fresh with line := 1, drop := 6 }).line.toNat ∧
      (base.robot 13).static.drop = (raw { fresh with line := 1, drop := 6 }).drop) ∧
    (∀ r ∈ ([12, 13, 14] : List RobotNo), (base.robot r).static.line.val ≠ (raw fresh).line.toNat) ∧
    190000 < (raw { fresh with hubMax := 190001 }).hubMax.toInt ∧
    16777215 < (raw { fresh with gearHub := 16777216 }).gearHub.toNat ∧
    ((raw { fresh with links := [link 40 0 0] }).links.map RawLink.zone = [40] ∧ (base.zone 40).memberA ≠ some 479 ∧
      (base.zone 40).memberB ≠ some 479) ∧
    (raw { fresh with elbowMin := 1 }).homeAngles.elbow.toInt < (raw { fresh with elbowMin := 1 }).elbowMin.toInt ∧
    (raw fresh).links = [] ∧ (raw fresh).homeAngles = pair 0 0 := by decide +kernel

/-- Zone 41 of `base` is not held MOVING, that of `listed` is; its members 14 and 13 are good, 14 and 12 are not. -/
theorem witness_ZoneLoad : Ready base ∧ Ready listed ∧ (1023 : Half).toNat + (1 : Half).toNat ≤ 1024 ∧
    (∀ r, (base.zone 41).holder ≠ .moving r) ∧ (listed.zone 41).holder = .moving 13 ∧
    zoneMembers base 41 (le16 14 ++ le16 13) = some (some 14, some 13) ∧ zoneMembers base 41 (le16 14 ++ le16 12) = none ∧
    memberField 480 = none ∧ memberField 479 = some (some 479) ∧ (le16 14 ++ le16 13).length = (1 : Half).toNat * 4 :=
  ⟨ready_base, ready_listed, by decide +kernel⟩

/-- A robot present and one absent, in a part that answers at once. -/
theorem witness_RecordsRoundTrip : Ready base ∧ (base.robot 13).static.present = true ∧ StaticOk (base.robot 13).static ∧
    (base.robot 11).static = RobotStatic.absent := by
  refine ⟨ready_base, ?_⟩
  unfold StaticOk
  decide +kernel

theorem witness_FlagsOutcome : Ready base ∧ 479 < (480 : Half).toNat ∧ (13 : Half).toNat < (14 : Half).toNat ∧
    (479 : Half).toNat ≤ 479 ∧ (13 : Half).toNat ≤ (479 : Half).toNat := ⟨ready_base, by decide +kernel⟩

/-- Robot 14 deferred seven times, its zone 41 held by robot 13: R66 drops it EXPIRED at the eighth, and no wave is created. -/
def expiring : State := { base with deferred := [⟨goto 14 (-120000) 140000, 7⟩] }

/-- A commit of the neighbourhood, whose part holds no wave, and one refused while wave 1 is active; the last chain count. -/
theorem witness_CommitOutcome : Ready moved ∧ Ready listed ∧ (∀ w, moved.wave = some w → w.state = .done) ∧
    (¬∀ w, listed.wave = some w → w.state = .done) ∧
    ¬((1 : Byte) = 0 ∨ 7 < (7 : Byte).toNat ∨ (1 : Byte) = 0) ∧ 7 < (8 : Byte).toNat ∧
    ¬(moved.openWave = [] ∧ moved.deferred = []) ∧ base.openWave = [] ∧ base.deferred = [] ∧
    ((commitOrder moved).map fun c => c.1.robot).Nodup ∧ moved.inOpen 11 = false ∧ moved.inDeferred 11 = false ∧
    (done (.commit 0xFFFF 3 1 2) moved).wave.isSome = true ∧ (done (.commit 0xFFFF 3 1 2) expiring).wave = none :=
  ⟨ready_moved, ready_listed, of_no_wave rfl, fun h => absurd (h _ rfl) WaveState.noConfusion, by decide +kernel⟩

/-- One candidate, with its robot in a state. -/
def candidate (m : MoveRecord) (f : Robot → Robot) : State := { changed m.robot f with openWave := [m] }

theorem ready_candidate (m : MoveRecord) (f : Robot → Robot) : Ready (candidate m f) := ready_base

theorem wave_candidate (m : MoveRecord) (f : Robot → Robot) : ∀ w, (candidate m f).wave = some w → w.state = .done :=
  of_no_wave rfl

/-- Robot 14's move needs zone 41, held by robot 13; robot 13's needs zones 41 and 40, its own and a free one. -/
theorem witness_CandidateIsTested_zones :
    (∃ p, planCandidate (candidate (goto 14 (-120000) 140000) id) (goto 14 (-120000) 140000) = .plan p ∧
      neededZones (base.robot 14).static.links .goto p = [41] ∧ (base.zone 41).holder = .parked 13) ∧
    ∃ p, planCandidate (candidate (goto 13 (-120000) 140000) id) (goto 13 (-120000) 140000) = .plan p ∧
      neededZones (base.robot 13).static.links .goto p = [41, 40] ∧ (base.zone 40).holder = .free :=
  ⟨⟨_, rfl, by decide +kernel⟩, ⟨_, rfl, by decide +kernel⟩⟩

/-- A candidate for each test before the zones: absent, disabled, line down, uncertain, empty, fenced, long, null. -/
theorem witness_CandidateIsTested :
    ((candidate (goto 11 0 0) id).robot 11).slot = .absent ∧
    ((candidate (goto 13 0 0) fun b => { b with static := { b.static with enable := false } }).robot 13).static.enable = false ∧
    (((candidate (goto 13 0 0) id).modLine 1 fun e => { e with state := .down }).line 1).state = .down ∧
    ((candidate (goto 13 0 0) fun b => { b with slot := .uncertain }).robot 13).slot = .uncertain ∧
    ((candidate ⟨13, .retrace, 1⟩ fun b => { b with stack := [] }).robot 13).stack = [] ∧
    planCandidate (candidate (goto 13 0 0) fun b => { b with static := { b.static with fenceMode := .inside } })
      (goto 13 0 0) = .fenced ∧
    planCandidate (candidate (goto 13 0 0) id) ⟨13, .goto ⟨pair 0 0, pair 7153601 0, false, false⟩, 1⟩ = .long ∧
    planCandidate (candidate (goto 13 60000 150000) id) (goto 13 60000 150000) = .null := by decide +kernel

/-- The order of R69: a deferred entry before the open records, a robot with PRIORITY before those without. -/
theorem witness_CandidateIsTested_order :
    commitOrder { moved with openWave := [goto 12 60000 100000], deferred := [⟨goto 14 0 0, 7⟩] } =
      [(goto 14 0 0, 7)] ++ (goto 12 60000 100000, 0) :: [] ∧
    commitOrder (done (.flagsSet 0xFFFF 12 12 2) { base with openWave := [goto 12 60000 100000], deferred := [⟨goto 14 0 0, 7⟩] }) =
      [] ++ (goto 12 60000 100000, 0) :: [(goto 14 0 0, 7)] ∧
    ([goto 12 60000 100000, goto 14 0 0].map MoveRecord.robot).Nodup := by decide +kernel

/-- Robot 14 needs zone 41, which robot 13, examined before it, is admitted to. -/
theorem witness_CandidateIsTested_taken :
    let s := { base with openWave := [goto 13 (-120000) 140000, goto 14 (-120000) 140000] }
    commitOrder s = [(goto 13 (-120000) 140000, 0)] ++ (goto 14 (-120000) 140000, 0) :: [] ∧
    (done (.commit 0xFFFF 3 1 2) s).arming.map (fun q => (q.robot, neededZones (s.robot q.robot).static.links q.kind q.plan)) =
      [(13, [41, 40])] := by decide +kernel

/-- Robot 14 needs zone 41, which robot 13, homing from UNCERTAIN before it and linked to the zone, keeps BLOCKED. -/
theorem witness_CandidateIsTested_homing :
    let s := ({ base with openWave := [⟨13, .home, 1⟩, goto 14 (-120000) 140000] }.setSlot 13 .uncertain).setZone 41
      { base.zone 41 with holder := .blocked }
    commitOrder s = [(⟨13, .home, 1⟩, 0)] ++ (goto 14 (-120000) 140000, 0) :: [] ∧ (s.zone 41).names 13 = true ∧
    (s.robot 13).static.links.map Link.zone = [41, 40] ∧
    (let t := done (.commit 0xFFFF 3 1 2) s
    (t.arming.map Member.robot, (t.robot 14).lastOutcome, (t.zone 41).holder) = ([13], .deferred, .blocked)) := by
  decide +kernel

/-- Sixty-five deferred HOMEs of robots that stand in a zone that is BLOCKED. -/
def crowd : State :=
  let s := { base with
    robots := Vector.replicate 480 (neighbour 5 [link 40 30000 90000] 60000 130000)
    deferred := (List.range 65).filterMap fun i => (index? 480 i).map fun r => ⟨⟨r, .home, 1⟩, 1⟩ }
  s.setZone 40 ⟨some 12, some 13, .blocked, false, false⟩

/-- R66: 64 of them fill the deferred list again, and the last is DROPPED with OVERFLOW. -/
theorem witness_CandidateIsTested_full :
    let t := done (.commit 0xFFFF 3 1 2) crowd
    (commitOrder crowd).length = 65 ∧ t.deferred.length = 64 ∧
      ((t.robot 64).lastOutcome, (t.robot 64).lastReason) = (.dropped, .overflow) := by decide +kernel

/-- Wave 1 running with member 13 CLEARING and member 12 undecided, its CLEAR in flight. -/
def clearing : State :=
  onLine (waving .running .stopping .moving { member13 with delivery := .clearing, clearLineReset := true } member12)
    (txn (.clear 13) none (.waiting .clear 0))

/-- Wave 1 with member 12 LISTED and member 13 IN_FLIGHT; with both MOVING; with one STOPPING; no wave; a wave ABORTING. -/
theorem witness_AbortOutcome : Ready base ∧ Ready (delivering (.waiting .call 300)) ∧ Ready (polled 13) ∧
    (∀ w, base.wave = some w → w.state = .done) ∧
    (delivering (.waiting .call 300)).wave.map (fun w => (w.state, decide (w.members.map Member.robot).Nodup)) =
      some (WaveState.arming, true) ∧
    (delivering (.waiting .call 300)).members.map (fun m => (m.outcome, m.delivery)) = [(.none, .inFlight), (.none, .listed)] ∧
    ((delivering (.waiting .call 300)).robot 13).slot = .arming ∧ ((delivering (.waiting .call 300)).line 1).state ≠ .down ∧
    ((polled 13).robot 13).slot = .moving ∧ (clearing.robot 13).slot = .stopping ∧
    clearing.members.map Member.delivery = [.clearing, .accepted] ∧
    (waving .aborting .stopping .stopping member13 member12).wave.map Wave.state = some .aborting := by
  refine ⟨ready_base, by unfold Ready; decide +kernel, ready_polled, of_no_wave (by decide +kernel), ?_⟩
  decide +kernel

/-- Wave 1 running with line B's only work a transaction of a kind for member 13. -/
def working (k : TxnKind) (slot : SlotState) (m13 : Member) : State :=
  onLine (waving .running slot .moving m13 member12) (txn k none (.sending .call))

theorem working_only (k : TxnKind) (slot : SlotState) (m13 : Member) : OnlyWork ((working k slot m13).line 1) k :=
  Or.inl ⟨txn k none (.sending .call), by simp [working, onLine, State.modLine, State.setLine, State.line], rfl, rfl,
    by simp [working, onLine, waving, base, State.modLine, State.setLine, State.line, State.setZone, State.setSlot, State.modRobot,
      State.setRobot, State.reset, Line.reset],
    by simp [working, onLine, waving, base, State.modLine, State.setLine, State.line, State.setZone, State.setSlot, State.modRobot,
      State.setRobot, State.reset, Line.reset]⟩

/-- A line with one listed DELIVER, and with two; one with a transaction of each kind for a member waiting for it. -/
theorem witness_LineResetOutcome : Ready base ∧ (∀ l : LineNo, (0xF0 : Byte).getLsbD l.val = false) ∧
    (∀ k : LineNo, (2 : Byte).getLsbD k.val = decide (k = 1)) ∧
    (let s := listed.modLine 1 fun e => { e with normal := [⟨13, true, false, false⟩] }
     (s.line 1).txn = none ∧ (s.line 1).urgent = [] ∧ (s.robot 13).static.line = 1 ∧
       (s.member? 13).map Member.delivery = some .listed) ∧
    (listed.line 1).normal = ([13, 12] : List RobotNo).map (fun r => ⟨r, true, false, false⟩) ∧
    (∀ r ∈ ([13, 12] : List RobotNo), (listed.robot r).static.line = 1 ∧
      (listed.member? r).map Member.delivery = some .listed) ∧
    (∀ st ∈ [StopPhase.overrunHalt, .halt 1, .read 1, .clear],
      ((working (.haltSingle 13) .stopping { member13 with stop := st }).member? 13).map Member.stop = some st) ∧
    ((working (.clear 13) .stopping { member13 with delivery := .clearing }).member? 13).map Member.delivery = some .clearing ∧
    ((working (.poll 13) .moving member13).robot 13).slot = .moving ∧
    ((working (.poll 13) .moving member13).robot 13).static.line = 1 :=
  ⟨ready_base, by decide +kernel⟩

theorem witness_TakeOutcome : Ready wavesDone ∧ (wavesDone.events.get .waveDone).count ≠ 0 ∧
    wavesDone.events.masks.masked .flow = false ∧
    (∀ d ∈ EventClass.byPriority, (wavesDone.events.get d).count ≠ 0 → EventClass.idx .waveDone ≤ d.idx) ∧
    (∀ d ∈ EventClass.byPriority, (base.events.get d).count = 0) :=
  ⟨ready_wavesDone, by decide +kernel⟩

theorem witness_MaskOutcome : Ready base := ready_base

theorem witness_RaiseChangesOneRecord : EventClass.waveDone ≠ EventClass.stall ∧ (base.events.get .stall).count = 0 ∧
    (wavesDone.events.get .waveDone).count ≠ 0 := by decide +kernel

theorem witness_AttentionValue : (wavesDone.events.get .waveDone).count ≠ 0 ∧ wavesDone.resetLow = false := by
  decide +kernel

theorem witness_ExpiryTakesAMark : listed.resetLow = false ∧
    (∀ w, listed.wave = some w → w.state = .arming ∨ w.state = .armed → w.startMark ≠ listed.epoch.counter + 1) :=
  ⟨by decide +kernel, of_wave (v := _) rfl (by decide +kernel)⟩

/-- Wave 1 a mark before its start with every delivery still LISTED, and no chain. -/
def unheard : State :=
  let s := (waving .arming .arming .arming { member13 with delivery := .listed } { member12 with delivery := .listed }).modWave
    fun w => { w with chainRemaining := 0 }
  { s with epoch := { s.epoch with counter := 4002 } }

/-- R81, R83: at the mark both members are MISSED, and the wave is DONE: WAVE_LATE and WAVE_DONE are raised with its number. -/
theorem test_mark_done :
    let t := done .epochMark unheard
    t.wave.map Wave.state = some .done ∧ t.members.map Member.outcome = [.missed, .missed] ∧
      t.events.get .waveLate = ⟨1, 1, 1⟩ ∧ t.events.get .waveDone = ⟨1, 1, 1⟩ := by decide +kernel

/-- Wave 1 a mark before its start, member 13 ARMED and late to none, member 12 LISTED or IN_FLIGHT. -/
def starting (d : Delivery) : State :=
  let s := waving .arming .armed .arming member13 { member12 with delivery := d }
  { s with epoch := { s.epoch with counter := 4002 } }

theorem witness_WaveStartsAtItsMark :
    (starting .listed).resetLow = false ∧
    (starting .listed).wave = some (wave1 .arming [member13, { member12 with delivery := .listed }]) ∧
    (starting .inFlight).wave = some (wave1 .arming [member13, { member12 with delivery := .inFlight }]) ∧
    (wave1 .arming []).startMark = (starting .listed).epoch.counter + 1 ∧
    ([member13, member12].map Member.robot).Nodup ∧ member13.outcome = .none ∧ member13.delivery ≠ .listed ∧
    unheard.wave.map (fun w => (w.state, w.startMark)) = some (.arming, 4003) ∧ unheard.epoch.counter + 1 = 4003 ∧
    ((starting .listed).robot 13).slot = .armed ∧ ((starting .listed).line 1).state ≠ .down := by decide +kernel

/-- Pulses at the ends of the windows of 7.3: 2000 µs each side of a mark, and half a period. -/
theorem witness_PulseIsTaken : (track 0 500).resetLow = false ∧ (track 0 500).timer.toNat ≤ (2000 : Time).toNat ∧
    (∀ w, (track 0 500).wave = some w → w.state = .arming ∨ w.state = .armed →
      w.startMark ≠ (track 0 500).epoch.counter + 1) ∧
    (track 0 500).epoch.mode = .track ∧ min (track 0 500).epoch.window.toNat ((track 0 500).epoch.running.toNat / 8) = 2000 ∧
    (track 0 500).epoch.running.toNat = 100000 ∧ unheard.wave.map (fun w => (w.state, w.startMark)) = some (.arming, 4003) ∧
    unheard.epoch.counter + 1 = 4003 ∧ (unheard.members.map Member.robot).Nodup ∧ unheard.resetLow = false := by
  refine ⟨by decide +kernel, by decide +kernel, of_no_wave rfl, by decide +kernel⟩

/-- R80, R144, R149: a pulse in the later half in ONCE mode takes the mark, which starts the wave that has it as its start mark. -/
theorem test_pulse_starts_wave :
    let t := done (.epochPulse 60000) { unheard with epoch := { unheard.epoch with mode := .once, tLast := 0 } }
    t.epoch.counter = 4003 ∧ t.epoch.mode = .free ∧ t.members.map Member.outcome = [.missed, .missed] := by decide +kernel

theorem witness_LineEventsStayOnTheirLine : eventLine (.endSent 3 0) = some 3 := by decide +kernel

/-- The arbiter at the last moment of the quiet gap, for each choice, and with what an abandoned transaction left. -/
theorem witness_ArbiterChoosesByPriority :
    let e := listed.line 1
    listed.resetLow = false ∧ e.state = .idle ∧ e.residue = none ∧ e.lastChar + e.timing.tGap.toNat ≤ (listed.clock 40).now ∧
      (listed.clock 39).now < e.lastChar + e.timing.tGap.toNat ∧
      e.haltPending = false ∧ e.goPending = none ∧ e.urgent = [] ∧ e.normal = [⟨13, true, false, false⟩, ⟨12, true, false, false⟩] ∧
      (listed.member? 13).isSome = true ∧ (base.line 1).normal = [] ∧ (base.line 1).cycle = [] ∧
      ((left ⟨deliverTxn (.receiving .call 0), false⟩).line 1).residue = some ⟨deliverTxn (.receiving .call 0), false⟩ ∧
      ((left ⟨deliverTxn (.sending .call), false⟩).line 1).residue = some ⟨deliverTxn (.sending .call), false⟩ ∧
      ((done (.broadcastSent 1 1000) (onLine (waving .running .armed .armed member13 member12)
        (txn (.go ⟨1, 0⟩) none (.sending (.go ⟨1, 0⟩))))).line 1).cycle = [⟨13, 51000⟩, ⟨12, 51000⟩] := by decide +kernel

/-- An exchange of line B in a phase. -/
theorem exchanging {s : State} {x : Txn} {f : FrameKind} {since : Nat} (hr : s.resetLow = false)
    (hc : (s.line 1).residue = none) (hp : x.phase = .waiting f since ∨ x.phase = .receiving f since) :
    Exchanging (onLine s x) 1 x f since :=
  ⟨hr, by simpa [onLine, State.modLine, State.setLine, State.line] using hc,
    by simp [onLine, State.modLine, State.setLine, State.line], hp⟩

/-- An answer of a line in time, from facts that a small state decides at once. -/
theorem answering {s : State} {l : LineNo} {t : Time} {x : Txn} {f : FrameKind} {since : Nat}
    (h : (s.resetLow = false ∧ (s.line l).residue = none ∧ (s.line l).txn = some x) ∧
      (x.phase = .waiting f since ∨ x.phase = .receiving f since) ∧ (s.clock t).now ≤ since + answerLimit x.timing f) :
    Answering s l t x f since :=
  ⟨⟨h.1.1, h.1.2.1, h.1.2.2, h.2.1⟩, fun _ => h.2.2⟩

/-- Each phase of a transaction, an answer a microsecond late, and each phase of one that was abandoned. -/
theorem witness_FramesOfAnExchange :
    let s := fun p => delivering p
    (s (.gap .call 2500)).resetLow = false ∧ ((s (.gap .call 2500)).line 1).residue = none ∧
      ((s (.sending .call)).line 1).txn = some (deliverTxn (.sending .call)) ∧ FrameKind.call.awaits = true ∧
      ((s (.gap .call 2500)).clock 2500).now = 2500 ∧
      ((s (.waiting .call 300)).clock 600).now ≤ 300 + answerLimit Timing.reset .call ∧
      300 + answerLimit Timing.reset .call < ((s (.waiting .call 300)).clock 601).now ∧
      ((s (.gap .endFrame 0)).line 1).lastChar + Timing.reset.tGap.toNat ≤ ((s (.gap .endFrame 0)).clock 40).now ∧
      (∀ p ∈ [Phase.sending .call, .sending .endFrame, .sending (.go ⟨1, 0⟩), .waiting .call 300, .waiting .clear 300,
          .receiving .call 300, .receiving .halt 300],
        (left ⟨deliverTxn p, false⟩).resetLow = false ∧
          ((left ⟨deliverTxn p, false⟩).line 1).residue = some ⟨deliverTxn p, false⟩ ∧
          ((left ⟨deliverTxn p, false⟩).clock 600).now ≤ 300 + answerLimit (deliverTxn p).timing .call) ∧
      readAnswer (deliverTxn (.waiting .call 300)).drop [0x3C, 6, 0x81, 0, 0, 0] = none := by
  decide +kernel

theorem witness_CallAndBodyAnswers :
    Answering (delivering (.waiting .call 300)) 1 600 (deliverTxn (.waiting .call 300)) .call 300 ∧
    Answering (delivering (.receiving (.body member13.plan.body) 300)) 1 9000
      (deliverTxn (.receiving (.body member13.plan.body) 300)) (.body member13.plan.body) 300 :=
  ⟨⟨exchanging (by decide +kernel) (by decide +kernel) (Or.inl rfl), fun _ => by decide +kernel⟩,
    ⟨exchanging (by decide +kernel) (by decide +kernel) (Or.inr rfl), fun h => by cases h⟩⟩

/-- A wait of robot 13's READ, one of its call, and one of a poll with its last attempt but one used. -/
theorem witness_AttemptsAreUsed :
    Exchanging (reading (.receiving .readRequest 0)) 1 (txn (.read 13 true false) none (.receiving .readRequest 0))
      .readRequest 0 ∧
    Exchanging (delivering (.waiting .call 300)) 1 (deliverTxn (.waiting .call 300)) .call 300 ∧
    attemptLeft (txn (.read 13 true false) none (.receiving .readRequest 0)) .readRequest ∧
    attemptLeft (deliverTxn (.waiting .call 300)) .call ∧
    attemptLeft { txn (.poll 13) none (.waiting .poll 0) with calls := 3 } .poll ∧
    readAnswer 6 [0x3C, 6, 0x81, 0, 0, 0] = none ∧
    0 + Timing.reset.tTurn.toNat + Timing.reset.tRead.toNat ≤ ((reading (.receiving .readRequest 0)).clock 1500).now ∧
    300 + answerLimit Timing.reset .call ≤ ((delivering (.waiting .call 300)).clock 600).now ∧
    ((delivering (.waiting .call 300)).line 1).silence + 1 < Timing.reset.downLimit.toNat := by
  refine ⟨exchanging (by decide +kernel) (by decide +kernel) (Or.inr rfl),
    exchanging (by decide +kernel) (by decide +kernel) (Or.inl rfl), ?_⟩
  unfold attemptLeft
  decide +kernel

/-- `delivering` after seven silent waits. -/
def silent : State :=
  onLine ((waving .arming .arming .arming { member13 with delivery := .inFlight }
    { member12 with delivery := .listed }).modLine 1 fun e => { e with silence := 7 }) (deliverTxn (.waiting .call 300))

theorem witness_SilenceTakesTheLineDown :
    Exchanging silent 1 (deliverTxn (.waiting .call 300)) .call 300 ∧
    300 + answerLimit Timing.reset .call ≤ (silent.clock 600).now ∧
    Timing.reset.downLimit.toNat ≤ (silent.line 1).silence + 1 ∧
    silent.wave.map (fun w => decide (w.members.map Member.robot).Nodup) = some true ∧
    silent.members.map (fun m => (m.outcome, m.line, m.delivery)) = [(.none, 1, .inFlight), (.none, 1, .listed)] :=
  ⟨exchanging (by decide +kernel) (by decide +kernel) (Or.inl rfl), by decide +kernel⟩

/-- R113, R83: a line that goes DOWN under the last undecided member of a RUNNING wave: LOST and DONE, with LINE_DOWN and WAVE_DONE
raised and no LOST. -/
theorem test_line_down_done :
    let s := { last13 with deferred := [] }.modLine 1 fun e => { e with silence := 7 }
    let t := done (.answerWaitSilence 1 300) s
    (t.line 1).state = .down ∧ t.members.map Member.outcome = [.lost, .arrived] ∧ t.wave.map Wave.state = some .done ∧
      t.events.get .lineDown = ⟨1, 1, 1⟩ ∧ t.events.get .waveDone = ⟨1, 1, 1⟩ ∧ (t.events.get .lost).count = 0 := by
  decide +kernel

/-- Member 13 in the READ of a read-back round. -/
def readBack (round : Nat) : State :=
  onLine (waving .aborting .stopping .stopping { member13 with stop := .read round } member12)
    (txn (.read 13 false true) none (.waiting .readRequest 0))

/-- END going out for a DELIVER, for a REFRESH's READ, for the READ of a read-back, and for one whose robot was reloaded. -/
theorem witness_EndClosesAFailedTransaction :
    let s := delivering (.sending .endFrame)
    s.resetLow = false ∧ (s.line 1).residue = none ∧ (s.line 1).txn = some (deliverTxn (.sending .endFrame)) ∧
      (s.member? 13).map Member.delivery = some .inFlight ∧
      ((reading (.sending .endFrame)).line 1).txn = some (txn (.read 13 true false) none (.sending .endFrame)) ∧
      (reading (.sending .endFrame)).wave = none ∧
      (let v := onLine (readBack 1) (txn (.read 13 false true) none (.sending .endFrame))
       (v.line 1).txn = some (txn (.read 13 false true) none (.sending .endFrame)) ∧ (v.line 1).residue = none ∧
         v.member? 13 = some { member13 with stop := .read 1 } ∧ member12 ∈ v.members) ∧
      { deliverTxn (.sending .endFrame) with stale := true }.stale = true := by decide +kernel

theorem witness_BroadcastEnds :
    let s := onLine (waving .running .armed .armed member13 member12) (txn (.go ⟨1, 0⟩) none (.sending (.go ⟨1, 0⟩)))
    let kept := (waving .running .armed .armed member13 member12).modLine 1 fun e =>
      { e with residue := some ⟨txn (.go ⟨1, 0⟩) none (.sending (.go ⟨1, 0⟩)), true⟩ }
    s.resetLow = false ∧ (s.line 1).residue = none ∧ s.wave = some (wave1 .running [member13, member12]) ∧
      (wave1 .running [member13, member12]).number = 1 ∧ ([member13, member12].map Member.robot).Nodup ∧
      member13.outcome = .none ∧ member13.line = 1 ∧ (s.robot 13).slot = .armed ∧
      (kept.line 1).residue = some ⟨txn (.go ⟨1, 0⟩) none (.sending (.go ⟨1, 0⟩)), true⟩ ∧ (kept.line 1).state ≠ .down ∧
      kept.wave = some (wave1 .running [member13, member12]) ∧
      ((onLine base (txn .haltAll none (.sending .haltAll))).line 1).txn = some (txn .haltAll none (.sending .haltAll)) := by
  decide +kernel

/-- A body answered in time, late, and after an ABORT that has made robot 13 STOPPING. -/
theorem witness_DeliverEnds :
    let x := deliverTxn (.waiting (.body member13.plan.body) 300)
    let s := delivering (.waiting (.body member13.plan.body) 300)
    let late := s.modMember 13 fun m => { m with late := true }
    let aborted := (s.setSlot 13 .stopping).modMember 13 fun m => { m with stop := .read 1 }
    (Answering s 1 2300 x (.body member13.plan.body) 300 ∧ Answering late 1 2300 x (.body member13.plan.body) 300 ∧
      Answering aborted 1 2300 x (.body member13.plan.body) 300) ∧
    s.wave.map Wave.state = some .arming ∧
    s.member? 13 = some { member13 with delivery := .inFlight } ∧
    late.member? 13 = some { member13 with delivery := .inFlight, late := true } ∧
    aborted.member? 13 = some { member13 with delivery := .inFlight, stop := .read 1 } :=
  ⟨⟨answering (by decide +kernel), answering (by decide +kernel), answering (by decide +kernel)⟩,
    by decide +kernel⟩

/-- The last attempt of a short transaction of line B for member 13, as it waits for the answer. -/
def lastTry (k : TxnKind) (f : FrameKind) : Txn := { txn k none (.waiting f 0) with calls := 4 }

/-- Wave 1 running with member 13 in a situation, its robot STOPPING, and the last attempt of a transaction in flight. -/
def trying (k : TxnKind) (f : FrameKind) (m13 : Member) : State :=
  onLine (waving .running .stopping .moving m13 member12) (lastTry k f)

/-- A wait of it that ends in silence at its limit. -/
theorem trying_fails (k : TxnKind) (f : FrameKind) (m13 : Member) (h : f = .clear ∨ f = .halt ∨ f = .poll) :
    FailsLast (trying k f m13) 1 300 (lastTry k f) f 0 (.answerWaitSilence 1 300) := by
  have hc : (base.line 1).residue = none ∧ (base.line 1).silence + 1 < Timing.reset.downLimit.toNat ∧
      Timing.reset.nCall.toNat ≤ 4 ∧ 300 ≤ (base.clock 300).now := by decide +kernel
  have ht : 0 + answerLimit Timing.reset f ≤ 300 := by rcases h with rfl | rfl | rfl <;> decide +kernel
  have hs : ((trying k f m13).line 1).silence = (base.line 1).silence := by
    simp [trying, onLine, waving, State.modLine, State.setLine, State.line, State.setZone, State.setSlot, State.modRobot,
      State.setRobot]
  exact ⟨exchanging rfl hc.1 (Or.inl rfl), h, hc.2.2.1,
    .inr (.inr ⟨rfl, rfl, ht.trans hc.2.2.2, hs ▸ hc.2.1⟩)⟩

theorem witness_ClearEnds : Answering clearing 1 300 (txn (.clear 13) none (.waiting .clear 0)) .clear 0 ∧
    clearing.wave.map Wave.state = some .running ∧
    clearing.member? 13 = some { member13 with delivery := .clearing, clearLineReset := true } ∧
    ((clearing.line 1).state ≠ .down) ∧
    FailsLast (trying (.clear 13) .clear { member13 with delivery := .clearing }) 1 300 (lastTry (.clear 13) .clear) .clear 0
      (.answerWaitSilence 1 300) ∧
    FailsLast (trying (.clear 13) .clear { member13 with stop := .clear }) 1 300 (lastTry (.clear 13) .clear) .clear 0
      (.answerWaitSilence 1 300) ∧
    (trying (.clear 13) .clear { member13 with stop := .clear }).member? 13 = some { member13 with stop := .clear } :=
  ⟨⟨exchanging (by decide +kernel) (by decide +kernel) (Or.inl rfl), fun _ => by decide +kernel⟩, by decide +kernel,
    by decide +kernel, by decide +kernel, trying_fails _ _ _ (Or.inl rfl),
    trying_fails _ _ _ (Or.inl rfl), by decide +kernel⟩

/-- Robot 13 polled while it is MOVING, and when it is STOPPING already. -/
theorem witness_PollLeavesOrClears : Answering (polled 13) 1 300 (txn (.poll 13) none (.waiting .poll 0)) .poll 0 ∧
    (polled 13).wave.map Wave.number = some 1 ∧ (polled 13).member? 13 = some { member13 with deadline := some 18500000 } ∧
    ((polled 13).robot 13).slot = .moving ∧
    Answering (trying (.poll 13) .poll member13) 1 300 (lastTry (.poll 13) .poll) .poll 0 ∧
    ((trying (.poll 13) .poll member13).robot 13).slot ≠ .moving ∧ WaveOpen (trying (.poll 13) .poll member13) :=
  ⟨⟨exchanging (by decide +kernel) (by decide +kernel) (Or.inl rfl), fun _ => by decide +kernel⟩, by decide +kernel,
    by decide +kernel, by decide +kernel,
    ⟨exchanging (by decide +kernel) (by decide +kernel) (Or.inl rfl), fun _ => by decide +kernel⟩, by decide +kernel,
    of_wave (v := _) rfl (by decide +kernel)⟩

/-- Another member undecided; none, with a chain remaining over a deferred entry, over none, and without a chain; a failed poll. -/
theorem witness_PollDecides :
    Answering (polled 13) 1 300 (txn (.poll 13) none (.waiting .poll 0)) .poll 0 ∧
    ((polled 13).member? 13 = some { member13 with deadline := some 18500000 } ∧ ((polled 13).member? 12).isSome = true ∧
      last13.undecidedMembers = [member13]) ∧
    FailsLast ((trying (.poll 13) .poll member13).setSlot 13 .moving) 1 300 (lastTry (.poll 13) .poll) .poll 0
      (.answerWaitSilence 1 300) ∧
    Answering last13 1 300 (txn (.poll 13) none (.waiting .poll 0)) .poll 0 ∧
    (1 : Byte) ≠ 0 ∧ (6 : Byte).toNat ≤ 6 ∧ (2 : Half) ≠ 1 ∧
    last13.member? 13 = some member13 ∧ (last13.robot 13).slot = .moving ∧ last13.deferred ≠ [] ∧
    last13.wave.map (fun w => (w.state, w.chainRemaining)) = some (.running, 1) ∧
    ({ last13 with deferred := [] } : State).deferred = [] ∧
    (last13.modWave fun w => { w with chainRemaining := 0 }).wave.map Wave.chainRemaining = some 0 := by
  refine ⟨answering (by decide +kernel), by decide +kernel, ?_, answering (by decide +kernel), by decide +kernel⟩
  · have h := trying_fails (.poll 13) .poll member13 (Or.inr (Or.inr rfl))
    exact ⟨⟨h.running, h.clear, h.txn, h.phase⟩, h.short, h.last, h.cause⟩

/-- A READ answered at the last moment of its limit, with robot 13 at its believed steps; one whose robot was reloaded. -/
theorem witness_RefreshAnswered :
    Exchanging (reading (.waiting .readRequest 0)) 1 (txn (.read 13 true false) none (.waiting .readRequest 0)) .readRequest 0 ∧
    WaveOpen (reading (.waiting .readRequest 0)) ∧
    ((reading (.waiting .readRequest 0)).clock 1500).now ≤ 0 + Timing.reset.tTurn.toNat + Timing.reset.tRead.toNat ∧
    ((reading (.waiting .readRequest 0)).robot 13).slot = .idle ∧
    ((reading (.waiting .readRequest 0)).robot 13).believed.steps = pair 600000 1500000 ∧
    ∀ k f, (f = .readRequest ∧ k = .read 13 true false) ∨ (f = .clear ∧ k = .clear 13) ∨ (f = .halt ∧ k = .haltSingle 13) →
      Answering (onLine base { txn k none (.receiving f 0) with stale := true }) 1 1500
        { txn k none (.receiving f 0) with stale := true } f 0 :=
  ⟨exchanging (by decide +kernel) (by decide +kernel) (Or.inl rfl), of_no_wave (by decide +kernel), by decide +kernel,
    by decide +kernel, by decide +kernel, fun _ _ _ =>
    ⟨exchanging (by decide +kernel) (by decide +kernel) (Or.inr rfl), fun h => by cases h⟩⟩

theorem witness_ReadBackAnswered :
    Exchanging (readBack 1) 1 (txn (.read 13 false true) none (.waiting .readRequest 0)) .readRequest 0 ∧
    Exchanging (readBack 2) 1 (txn (.read 13 false true) none (.waiting .readRequest 0)) .readRequest 0 ∧
    (readBack 1).member? 13 = some { member13 with stop := .read 1 } ∧
    (readBack 2).member? 13 = some { member13 with stop := .read 2 } ∧ ((readBack 1).member? 12).isSome = true ∧
    member13.plan.start.map Position.steps = some (pair 600000 1500000) ∧
    member13.plan.target.steps = pair (-1200000) 1400000 ∧ ((readBack 1).line 1).state ≠ .down :=
  ⟨exchanging (by decide +kernel) (by decide +kernel) (Or.inl rfl),
    exchanging (by decide +kernel) (by decide +kernel) (Or.inl rfl), by decide +kernel⟩

/-- HALT singles of an overrun, of a read-back round and of neither; robot 12 at its deadline and a microsecond before. -/
theorem witness_OverrunDeadline :
    (∀ m, FailsLast (trying (.haltSingle 13) .halt m) 1 300 (lastTry (.haltSingle 13) .halt) .halt 0 (.answerWaitSilence 1 300) ∧
      Answering (trying (.haltSingle 13) .halt m) 1 300 (lastTry (.haltSingle 13) .halt) .halt 0) ∧
    (∀ st ∈ [StopPhase.overrunHalt, .halt 1, .none],
      (trying (.haltSingle 13) .halt { member13 with stop := st }).member? 13 = some { member13 with stop := st }) ∧
    (polled 13).resetLow = false ∧
    (polled 13).member? 12 = some { member12 with deadline := some 6500000 } ∧ ((polled 13).robot 12).slot = .moving ∧
    6500000 ≤ ((polled 13).clock 6500000).now ∧ ((polled 13).clock 6499999).now < 6500000 :=
  ⟨fun m =>
    have h := trying_fails (.haltSingle 13) .halt m (Or.inr (Or.inl rfl))
    ⟨h, h.toExchanging, fun _ => Nat.le_refl 300⟩, by decide +kernel⟩

theorem witness_TargetsAreCorrectedAndGeared : CurveOk (calibrated.curve 1) ∧ (0 : Int) < 23750 ∧
    (190000 : Int) ≤ -190000 + 16 * 23750 := by
  unfold CurveOk
  decide +kernel

/-- A loaded fence; a plan with a start and one without. -/
theorem witness_SweepsMeetTheirSets : member13.plan.start.isSome = true ∧ { member13.plan with start := none }.start = none ∧ inHub (fenced.robot 13).static.fs = true ∧
    inHub (fenced.robot 13).static.fe = true := by decide +kernel

/-- A GOTO of 2.6, a RETRACE of robot 13 to the top of its stack, and a HOME from IDLE and from UNCERTAIN. -/
theorem witness_PlansSatisfyTheirBounds : ProfileOk (calibrated.profile 2) ∧ ProfileOk (base.profile 1) ∧
    (goto 37 45000 90000).what = .goto ⟨pair 45000 90000, pair 450000 900000, false, false⟩ ∧
    (base.robot 13).stack = [Position.zero] ∧ (base.robot 13).slot ≠ .uncertain ∧
    ((changed 13 fun b => { b with slot := .uncertain }).robot 13).slot = .uncertain := by
  unfold ProfileOk
  decide +kernel

/-- The delta of robot 37's elbow over 594 intervals at 150 steps. -/
theorem witness_GeneratorTakesExactlyTheDelta : (0 : Nat) < 594 ∧ (-179 : Int) ≠ 0 ∧ (-179 : Int).natAbs ≤ 594 * 150 := by
  decide +kernel

/-- A zone held by a robot in a wave state is not settled; robots of each presence, a HOME admitted from UNCERTAIN among them. -/
theorem witness_SettlementFollowsPresence : (listed.zone 41).holder = .moving 13 ∧ (listed.robot 13).slot.inWave = true ∧
    (base.robot 11).slot = .absent ∧ (base.robot 13).slot = .idle ∧ (listed.member? 13).isSome = true ∧
    ((changed 13 fun b => { b with slot := .uncertain }).robot 13).slot = .uncertain ∧
    (let at' := fun r => base.presence base.undecidedMembers (base.zone 41) (some r) 41
     at' 13 = .isIn ∧ at' 14 = .out) ∧
    (let s := done (.commit 0xFFFF 3 1 2) (candidate ⟨13, .home, 1⟩ fun b => { b with slot := .uncertain, rest := .uncertain })
     (s.robot 13).slot.inWave = true ∧ (s.member? 13).map (fun m => (m.kind, m.plan.start)) = some (.home, none)) ∧
    (∀ r, (base.zone 41).holder ≠ .moving r) := by decide +kernel

/-- Robot 13 UNCERTAIN, with the record of a HOME, and named in zone 6, to which it has no link. -/
def lost13 : State :=
  (candidate ⟨13, .home, 1⟩ fun b => { b with slot := .uncertain, rest := .uncertain }).setZone 6 ⟨some 13, none, .blocked, false, false⟩

/-- R59: a ZONE load may newly name robot 13 in zone 7, to which it has no link, while its HOME from UNCERTAIN runs: it is OUT there,
and the entry is FREE. Zone 6, which named it before, stays BLOCKED over such a load (R54). -/
theorem test_load_zone_homing :
    let s := done (.commit 0xFFFF 3 1 2) lost13
    let t := done (.loadZone 0xFFFF 6 2 (le16 13 ++ le16 0xFFFF ++ le16 13 ++ le16 0xFFFF)) { s with trunk := base.trunk }
    answer? t = some (.ok, 0, [2, 0]) ∧ t.zone 7 = ⟨some 13, none, .free, true, false⟩ ∧
      (t.zone 6).holder = .blocked := by decide +kernel

/-- R54, R62: the zones that name robot 13 stay BLOCKED at the commit of its HOME, with a link (41) and without (6). -/
theorem witness_CandidateIsTested_uncertain :
    let t := done (.commit 0xFFFF 3 1 2) lost13
    Ready lost13 ∧ commitOrder lost13 = [] ++ (⟨13, .home, 1⟩, 0) :: [] ∧ (lost13.robot 13).slot = .uncertain ∧ (t.robot 13).slot = .arming ∧ (t.zone 41).holder = .blocked ∧ (t.zone 6).holder = .blocked := by
  unfold Ready
  decide +kernel

theorem witness_UncertainRobotBlocksItsZones : (base.zone 41).holder = .parked 13 ∧ (listed.zone 41).holder = .moving 13 ∧
    (listed.zone 41).names 14 = true ∧ (base.zone 1).names 13 = false ∧ (base.zone 1).holder = .free := by decide +kernel

theorem witness_OffersMergeInPlace : (∀ x ∈ ([⟨12, .halt⟩] : List UrgentEntry), x.robot ≠ 13) ∧
    (∀ x ∈ ([⟨12, true, false, false⟩] : List NormalEntry), x.robot ≠ 13) := by decide +kernel

end Sys2Proof.Tests
end

section
/-!
SUPPORT. What the shared operations of the Zone Table and the Wave Controller do, one rule for each: settlement, a robot that becomes
UNCERTAIN, and a change of a member.
-/

namespace Sys2Proof.Machine

variable (s : State)

/-! ### Settlement -/

theorem raiseEach_eq (c : EventClass) (ds : List Nat) :
    State.raiseEach s c ds = { s with events := (State.raiseEach s c ds).events } := by
  induction ds generalizing s with
  | nil => rfl
  | cons d ds ih => exact ih (s.raise c (halfOf d))

theorem raiseEach_events (c : EventClass) (ds : List Nat) :
    (∀ d, d ≠ c → (State.raiseEach s c ds).events.get d = s.events.get d) ∧
      (State.raiseEach s c ds).events.masks = s.events.masks := by
  induction ds generalizing s with
  | nil => exact ⟨fun _ _ => rfl, rfl⟩
  | cons x ds ih =>
    obtain ⟨get, masks⟩ := ih (s.raise c (halfOf x))
    refine ⟨fun d hd => (get d hd).trans ?_, masks⟩
    show (s.events.put c _).get d = _
    rw [Events.get_put, if_neg hd.symm]

/-- Settlement changes holders, and raises ZONE_CONFLICT (R51, R52). -/
theorem settleWith_eq (ms : List Member) (sel : Nat → Zone → Bool) :
    s.settleWith ms sel =
      { s with
        zones := mapTable (fun z e => if sel z e then s.settled ms z e else e) s.zones
        events := (s.settleWith ms sel).events } :=
  raiseEach_eq { s with zones := _ } .zoneConflict _

variable (ms : List Member) (sel : Nat → Zone → Bool)

@[simp] theorem settleWith_pending : (s.settleWith ms sel).pending = s.pending := by rw [settleWith_eq]
@[simp] theorem settleWith_resetLow : (s.settleWith ms sel).resetLow = s.resetLow := by rw [settleWith_eq]
@[simp] theorem settleWith_timer : (s.settleWith ms sel).timer = s.timer := by rw [settleWith_eq]
@[simp] theorem settleWith_robots : (s.settleWith ms sel).robots = s.robots := by rw [settleWith_eq]
@[simp] theorem settleWith_curves : (s.settleWith ms sel).curves = s.curves := by rw [settleWith_eq]
@[simp] theorem settleWith_profiles : (s.settleWith ms sel).profiles = s.profiles := by rw [settleWith_eq]
@[simp] theorem settleWith_openWave : (s.settleWith ms sel).openWave = s.openWave := by rw [settleWith_eq]
@[simp] theorem settleWith_deferred : (s.settleWith ms sel).deferred = s.deferred := by rw [settleWith_eq]
@[simp] theorem settleWith_wave : (s.settleWith ms sel).wave = s.wave := by rw [settleWith_eq]
@[simp] theorem settleWith_waveCounter : (s.settleWith ms sel).waveCounter = s.waveCounter := by rw [settleWith_eq]
@[simp] theorem settleWith_lines : (s.settleWith ms sel).lines = s.lines := by rw [settleWith_eq]
@[simp] theorem settleWith_epoch : (s.settleWith ms sel).epoch = s.epoch := by rw [settleWith_eq]
@[simp] theorem settleWith_trunk : (s.settleWith ms sel).trunk = s.trunk := by rw [settleWith_eq]

@[simp] theorem settleWith_robot (r : RobotNo) : (s.settleWith ms sel).robot r = s.robot r :=
  robot_congr (settleWith_robots s ms sel) r

@[simp] theorem settleWith_line (l : LineNo) : (s.settleWith ms sel).line l = s.line l :=
  line_congr (settleWith_lines s ms sel) l

/-- Only the entries that settle are settled. -/
theorem zone_settleWith (z : ZoneId) :
    (s.settleWith ms sel).zone z = if sel z.val (s.zone z) then s.settled ms z.val (s.zone z) else s.zone z := by
  rw [settleWith_eq]
  exact mapTable_getElem_fin _ s.zones z

theorem settleWith_events :
    (∀ c, c ≠ .zoneConflict → (s.settleWith ms sel).events.get c = s.events.get c) ∧
      (s.settleWith ms sel).events.masks = s.events.masks :=
  raiseEach_events _ _ _

/-- Settlement never changes the members of an entry. -/
@[simp] theorem settled_memberA (z : Nat) (e : Zone) : (s.settled ms z e).memberA = e.memberA := by
  unfold State.settled; split <;> rfl

@[simp] theorem settled_memberB (z : Nat) (e : Zone) : (s.settled ms z e).memberB = e.memberB := by
  unfold State.settled; split <;> rfl

/-- The presence of a member settles to BLOCKED when it is UNKNOWN. -/
theorem holderFrom_unknown (e : Zone) {pa pb : Presence} (h : pa = .unknown ∨ pb = .unknown) :
    holderFrom e pa pb = .blocked := by
  rcases h with rfl | rfl
  · rfl
  · cases pa <;> rfl

/-- Settlement by presence alone gives no entry to a move (R51). -/
theorem holderFrom_ne_moving (e : Zone) (pa pb : Presence) (r : RobotNo) : holderFrom e pa pb ≠ .moving r := by
  cases pa <;> cases pb <;> simp [holderFrom]
  · cases e.memberA <;> simp
  · cases e.memberB <;> simp

/-- An entry keeps its holder when a robot in a wave state holds it MOVING (R51). -/
theorem keepsHolder_iff (e : Zone) :
    s.keepsHolder e = true ↔ ∃ q, e.holder = .moving q ∧ (s.robot q).slot.inWave = true := by
  unfold State.keepsHolder
  cases e.holder <;> simp

/-- An entry held MOVING after settlement is held by a robot in a wave state, which held it before (R51). -/
theorem settled_moving {z : Nat} {e : Zone} {r : RobotNo} (h : (s.settled ms z e).holder = .moving r) :
    e.holder = .moving r ∧ (s.robot r).slot.inWave = true := by
  unfold State.settled at h
  split at h
  · rename_i hk
    obtain ⟨q, hq, hw⟩ := (keepsHolder_iff s e).1 hk
    obtain rfl := Holder.moving.inj (hq.symm.trans h)
    exact ⟨h, hw⟩
  · exact absurd h (holderFrom_ne_moving _ _ _ _)

/-- A member of an entry that is UNCERTAIN is UNKNOWN to it. -/
theorem presence_uncertain {r : RobotNo} (h : (s.robot r).slot = .uncertain) (e : Zone) (z : Nat) :
    s.presence ms e (some r) z = .unknown := by
  simp [State.presence, presenceOf, h]

/-- An entry that names an UNCERTAIN robot settles to BLOCKED, unless another robot's move holds it (R51). -/
theorem settled_names_uncertain {r : RobotNo} (h : (s.robot r).slot = .uncertain) {e : Zone} (he : e.names r = true)
    (z : Nat) :
    (s.settled ms z e).holder = .blocked ∨
      ∃ q, q ≠ r ∧ (s.settled ms z e).holder = .moving q ∧ e.holder = .moving q ∧ (s.robot q).slot.inWave = true := by
  unfold State.settled
  split
  · rename_i hk
    obtain ⟨q, hq, hw⟩ := (keepsHolder_iff s e).1 hk
    exact .inr ⟨q, by rintro rfl; rw [h] at hw; exact absurd hw (by decide), hq, hq, hw⟩
  · refine .inl (holderFrom_unknown _ ?_)
    simp only [Zone.names, Bool.or_eq_true, decide_eq_true_eq] at he
    rcases he with he | he
    · exact .inl (he ▸ presence_uncertain s ms h e z)
    · exact .inr (he ▸ presence_uncertain s ms h e z)

/-! ### A robot becomes UNCERTAIN -/

variable (r : RobotNo)

@[simp] theorem settleNaming_pending : (s.settleNaming r).pending = s.pending := settleWith_pending ..
@[simp] theorem settleNaming_resetLow : (s.settleNaming r).resetLow = s.resetLow := settleWith_resetLow ..
@[simp] theorem settleNaming_robots : (s.settleNaming r).robots = s.robots := settleWith_robots ..
@[simp] theorem settleNaming_robot (q : RobotNo) : (s.settleNaming r).robot q = s.robot q := settleWith_robot ..
@[simp] theorem settleNaming_openWave : (s.settleNaming r).openWave = s.openWave := settleWith_openWave ..
@[simp] theorem settleNaming_deferred : (s.settleNaming r).deferred = s.deferred := settleWith_deferred ..
@[simp] theorem settleNaming_wave : (s.settleNaming r).wave = s.wave := settleWith_wave ..
@[simp] theorem settleNaming_waveCounter : (s.settleNaming r).waveCounter = s.waveCounter := settleWith_waveCounter ..
@[simp] theorem settleNaming_lines : (s.settleNaming r).lines = s.lines := settleWith_lines ..
@[simp] theorem settleNaming_line (l : LineNo) : (s.settleNaming r).line l = s.line l := settleWith_line ..
@[simp] theorem settleNaming_epoch : (s.settleNaming r).epoch = s.epoch := settleWith_epoch ..

theorem settleNaming_events {c : EventClass} (hc : c ≠ .zoneConflict) :
    (s.settleNaming r).events.get c = s.events.get c := (settleWith_events s _ _).1 c hc

/-- Only the zones that name the robot are settled (R53). -/
theorem zone_settleNaming (z : ZoneId) :
    (s.settleNaming r).zone z =
      if (s.zone z).names r then s.settled s.undecidedMembers z.val (s.zone z) else s.zone z :=
  zone_settleWith ..

/-- No zone naming a robot outside the wave states stays held MOVING by it (R51). -/
theorem settleNaming_released {r : RobotNo} (h : (s.robot r).slot.inWave = false) {z : ZoneId}
    (hz : (s.zone z).names r = true) : ((s.settleNaming r).zone z).holder ≠ .moving r := by
  rw [zone_settleNaming, if_pos hz]
  intro hm
  exact absurd ((settled_moving s _ hm).2.symm.trans h) (by decide)

@[simp] theorem blockHeld_robot (q : RobotNo) : (s.blockHeld r).robot q = s.robot q := rfl

theorem zone_blockHeld (z : ZoneId) :
    (s.blockHeld r).zone z = if (s.zone z).heldBy r then { s.zone z with holder := .blocked } else s.zone z :=
  mapTable_getElem_fin _ s.zones z

@[simp] theorem becomeUncertain_pending : (s.becomeUncertain r).pending = s.pending := settleNaming_pending ..
@[simp] theorem becomeUncertain_resetLow : (s.becomeUncertain r).resetLow = s.resetLow := settleNaming_resetLow ..
@[simp] theorem becomeUncertain_openWave : (s.becomeUncertain r).openWave = s.openWave := settleNaming_openWave ..
@[simp] theorem becomeUncertain_deferred : (s.becomeUncertain r).deferred = s.deferred := settleNaming_deferred ..
@[simp] theorem becomeUncertain_wave : (s.becomeUncertain r).wave = s.wave := settleNaming_wave ..
@[simp] theorem becomeUncertain_waveCounter : (s.becomeUncertain r).waveCounter = s.waveCounter :=
  settleNaming_waveCounter ..
@[simp] theorem becomeUncertain_line (l : LineNo) : (s.becomeUncertain r).line l = s.line l := settleNaming_line ..
@[simp] theorem becomeUncertain_epoch : (s.becomeUncertain r).epoch = s.epoch := settleNaming_epoch ..

/-- The robot is UNCERTAIN at zero, and no other robot changes (R8, R9). -/
@[simp] theorem becomeUncertain_robot (q : RobotNo) : (s.becomeUncertain r).robot q =
    if r = q then { s.robot q with slot := .uncertain, believed := Position.zero } else s.robot q := by
  simp [State.becomeUncertain]

theorem becomeUncertain_events {c : EventClass} (hc : c ≠ .zoneConflict) :
    (s.becomeUncertain r).events.get c = s.events.get c := settleNaming_events _ _ hc

/-- A zone of the robot that becomes UNCERTAIN: it is settled when it names the robot, after it is BLOCKED when the robot
holds it (R54). -/
theorem zone_becomeUncertain (z : ZoneId) : ∃ u : State,
    (∀ q, u.robot q = (s.becomeUncertain r).robot q) ∧
    (s.becomeUncertain r).zone z =
      let e := if (s.zone z).heldBy r then { s.zone z with holder := .blocked } else s.zone z
      if (s.zone z).names r then u.settled u.undecidedMembers z.val e else e := by
  refine ⟨(s.modRobot r fun b => { b with slot := .uncertain, believed := Position.zero }).blockHeld r, fun q => by simp, ?_⟩
  rw [State.becomeUncertain, zone_settleNaming, zone_blockHeld]
  have same : (s.modRobot r fun b => { b with slot := .uncertain, believed := Position.zero }).zone z = s.zone z := rfl
  rw [same]
  by_cases held : (s.zone z).heldBy r = true
  · simp only [if_pos held]; rfl
  · simp only [if_neg held]

/-- Every zone held by a robot that becomes UNCERTAIN is BLOCKED (R54). -/
theorem becomeUncertain_held {z : ZoneId} (h : (s.zone z).heldBy r = true) :
    ((s.becomeUncertain r).zone z).holder = .blocked := by
  obtain ⟨u, robots, hz⟩ := zone_becomeUncertain s r z
  rw [hz, if_pos h]
  dsimp only
  split
  · rename_i hn
    rcases settled_names_uncertain u u.undecidedMembers (r := r) (by simp [robots])
        (e := { s.zone z with holder := .blocked }) hn z.val with hb | ⟨q, -, -, hq, -⟩
    · exact hb
    · cases hq
  · rfl

/-- Every zone naming a robot that becomes UNCERTAIN is BLOCKED, unless another robot in a wave state holds it MOVING
(R53, R54). -/
theorem becomeUncertain_named {z : ZoneId} (h : (s.zone z).names r = true) :
    ((s.becomeUncertain r).zone z).holder = .blocked ∨
      ∃ q, q ≠ r ∧ ((s.becomeUncertain r).zone z).holder = .moving q ∧ (s.robot q).slot.inWave = true := by
  by_cases held : (s.zone z).heldBy r = true
  · exact .inl (becomeUncertain_held s r held)
  · obtain ⟨u, robots, hz⟩ := zone_becomeUncertain s r z
    rw [hz, if_neg held]
    dsimp only
    rw [if_pos h]
    refine (settled_names_uncertain u u.undecidedMembers (r := r) (by simp [robots]) h z.val).imp_right ?_
    rintro ⟨q, hq, hm, -, hw⟩
    refine ⟨q, hq, hm, ?_⟩
    rwa [robots, becomeUncertain_robot, if_neg hq.symm] at hw

/-- A zone that neither names nor is held by a robot that becomes UNCERTAIN is left as it was. -/
theorem becomeUncertain_apart {z : ZoneId} (hn : (s.zone z).names r = false) (hh : (s.zone z).heldBy r = false) :
    (s.becomeUncertain r).zone z = s.zone z := by
  obtain ⟨u, -, hz⟩ := zone_becomeUncertain s r z
  rw [hz, hn, hh]
  rfl

/-- The members of the entries stay when a robot becomes UNCERTAIN. -/
theorem becomeUncertain_names (z : ZoneId) (q : RobotNo) :
    ((s.becomeUncertain r).zone z).names q = (s.zone z).names q := by
  obtain ⟨a, b⟩ := (Judged.becomeUncertain (s := s) r).members z
  simp [Zone.names, a, b]

/-! ### ABORT -/

theorem aborted_state (w : Wave) : (abortRequest.aborted s w).state = doneTest (abortWave s).1 := by
  unfold abortRequest.aborted; rfl

/-! ### Controller reset -/

@[simp] theorem afterControllerReset_static (b : Robot) : b.afterControllerReset.static = b.static := by
  unfold Robot.afterControllerReset; split <;> rfl

theorem controllerReset_robot (q : RobotNo) : (controllerReset s).robot q = (s.robot q).afterControllerReset := by
  show (State.settle (State.modLines _ Line.afterControllerReset) fun _ _ => true).robot q = _
  rw [State.settle, settleWith_robot]
  exact mapTable_getElem_fin _ s.robots q

theorem controllerReset_line (l : LineNo) : (controllerReset s).line l = (s.line l).afterControllerReset := by
  show (State.settle (State.modLines _ Line.afterControllerReset) fun _ _ => true).line l = _
  rw [State.settle, settleWith_line, line_modLines]
  rfl

/-- Every zone is settled, by the robots as controller reset leaves them (R62). -/
theorem controllerReset_zone (z : ZoneId) : ∃ u : State, (∀ q, u.robot q = (s.robot q).afterControllerReset) ∧
    (controllerReset s).zone z = u.settled u.undecidedMembers z.val (s.zone z) := by
  refine ⟨State.modLines { s with
    trunk := { s.trunk with queue := [] }
    robots := mapTable (fun _ (b : Robot) => b.afterControllerReset) s.robots
    openWave := [], deferred := [], wave := none } Line.afterControllerReset, mapTable_getElem_fin _ s.robots, ?_⟩
  show (State.settle (State.modLines _ Line.afterControllerReset) fun _ _ => true).zone z = _
  rw [State.settle, zone_settleWith, if_pos rfl]
  rfl

/-- What controller reset keeps, and what it empties (R170). -/
theorem controllerReset_rest :
    (controllerReset s).pending = s.pending ∧ (controllerReset s).resetLow = s.resetLow ∧
    (controllerReset s).timer = s.timer ∧ (controllerReset s).curves = s.curves ∧
    (controllerReset s).profiles = s.profiles ∧ (controllerReset s).openWave = [] ∧ (controllerReset s).deferred = [] ∧
    (controllerReset s).wave = none ∧ (controllerReset s).waveCounter = s.waveCounter ∧
    (controllerReset s).epoch = s.epoch ∧ (controllerReset s).trunk = { s.trunk with queue := [] } ∧
    (controllerReset s).events = Events.reset :=
  ⟨settleWith_pending .., settleWith_resetLow .., settleWith_timer .., settleWith_curves .., settleWith_profiles ..,
    settleWith_openWave .., settleWith_deferred .., settleWith_wave .., settleWith_waveCounter .., settleWith_epoch ..,
    settleWith_trunk .., rfl⟩

/-! ### Members of the wave -/

/-- The undecided member read depends on the wave record alone. -/
theorem member?_congr {s t : State} (h : t.wave = s.wave) (r : RobotNo) : t.member? r = s.member? r := by
  simp [State.member?, State.undecidedMembers, State.members, h]

theorem member?_eq_find : s.member? r = s.members.find? fun m => m.undecided && decide (m.robot = r) := by
  simp [State.member?, State.undecidedMembers, List.find?_filter]

theorem member?_some {s : State} {r : RobotNo} {m : Member} (h : s.member? r = some m) :
    m ∈ s.members ∧ m.undecided = true ∧ m.robot = r := by
  rw [member?_eq_find] at h
  have := List.find?_some h
  simp only [Bool.and_eq_true, decide_eq_true_eq] at this
  exact ⟨List.mem_of_find?_eq_some h, this⟩

theorem member?_isSome : (s.member? r).isSome = true ↔ ∃ m ∈ s.members, m.undecided = true ∧ m.robot = r := by
  rw [member?_eq_find, List.find?_isSome]
  simp

theorem member?_of_undecided {s : State} {m : Member} (h : m ∈ s.undecidedMembers) : (s.member? m.robot).isSome = true := by
  rw [member?_isSome]
  obtain ⟨hm, hu⟩ := List.mem_filter.1 h
  exact ⟨m, hm, hu, rfl⟩

/-- A wave record stands when a robot has a member. -/
theorem wave_of_member? {s : State} {r : RobotNo} {m : Member} (h : s.member? r = some m) : ∃ w, s.wave = some w := by
  obtain ⟨hm, -⟩ := member?_some h
  unfold State.members at hm
  split at hm
  · exact absurd hm List.not_mem_nil
  · exact ⟨_, by assumption⟩

theorem members_of_wave {s : State} {w : Wave} (h : s.wave = some w) : s.members = w.members := by
  simp [State.members, h]

theorem members_modMember (f : Member → Member) : (s.modMember r f).members =
    s.members.map fun m => if m.robot = r ∧ m.undecided = true then f m else m := by
  unfold State.modMember
  split
  · rename_i h; simp [State.members, h]
  · rename_i w h; simp [State.members, h]

/-- A change of a robot's member leaves the other robots' members. -/
theorem member?_modMember_ne {f : Member → Member} (hf : ∀ m, (f m).robot = m.robot) {q : RobotNo} (hq : q ≠ r) :
    (s.modMember r f).member? q = s.member? q := by
  rw [member?_eq_find, member?_eq_find, members_modMember]
  generalize s.members = l
  induction l with
  | nil => rfl
  | cons m l ih =>
    rw [List.map_cons, List.find?_cons, List.find?_cons, ih]
    by_cases h : m.robot = r ∧ m.undecided = true
    · have away : m.robot ≠ q := fun e => hq (e.symm.trans h.1)
      simp [h, hf, hq.symm]
    · simp [h]

/-- A change of a robot's member that leaves it undecided. -/
theorem member?_modMember_same {f : Member → Member} (hf : ∀ m, (f m).robot = m.robot ∧ (f m).outcome = m.outcome) :
    (s.modMember r f).member? r = (s.member? r).map f := by
  have undecided (m : Member) : (f m).undecided = m.undecided := by simp [Member.undecided, (hf m).2]
  rw [member?_eq_find, member?_eq_find, members_modMember]
  generalize s.members = l
  induction l with
  | nil => rfl
  | cons m l ih =>
    rw [List.map_cons, List.find?_cons, List.find?_cons, ih]
    by_cases h : m.robot = r ∧ m.undecided = true
    · simp [h, (hf m).1, undecided]
    · rw [if_neg h]
      by_cases hu : m.undecided = true
      · have : m.robot ≠ r := fun e => h ⟨e, hu⟩
        simp [this]
      · simp [hu]

/-- A change that decides a robot's member leaves it none. -/
theorem member?_modMember_decided {f : Member → Member} (hf : ∀ m, (f m).outcome ≠ .none) :
    (s.modMember r f).member? r = none := by
  rw [member?_eq_find, members_modMember, List.find?_eq_none]
  intro m hm
  obtain ⟨q, -, rfl⟩ := List.mem_map.1 hm
  split
  · simp [Member.undecided, hf]
  · rename_i h
    intro hc
    simp only [Bool.and_eq_true, decide_eq_true_eq] at hc
    exact h ⟨hc.2, hc.1⟩

/-! ### What a change of a member and its decision leave -/

/-- The wave record after a change of a member depends on the wave record alone. -/
theorem modMember_wave_congr {s t : State} (h : t.wave = s.wave) (r : RobotNo) (f : Member → Member) :
    (t.modMember r f).wave = (s.modMember r f).wave := by
  unfold State.modMember
  rw [h]
  split
  · exact h
  · rfl

@[simp] theorem robot_modMember (f : Member → Member) (q : RobotNo) : (s.modMember r f).robot q = s.robot q :=
  robot_congr (State.modMember_robots s r f) q

@[simp] theorem line_modMember (f : Member → Member) (l : LineNo) : (s.modMember r f).line l = s.line l :=
  line_congr (State.modMember_lines s r f) l

@[simp] theorem zone_modMember (f : Member → Member) (z : ZoneId) : (s.modMember r f).zone z = s.zone z :=
  zone_congr (State.modMember_zones s r f) z

@[simp] theorem robot_modWave (f : Wave → Wave) (q : RobotNo) : (s.modWave f).robot q = s.robot q :=
  robot_congr (State.modWave_robots s f) q

variable (o : Ending) (why : Reason)

@[simp] theorem conclude_openWave : (s.conclude r o why).openWave = s.openWave := State.modMember_openWave ..
@[simp] theorem conclude_deferred : (s.conclude r o why).deferred = s.deferred := State.modMember_deferred ..
@[simp] theorem conclude_waveCounter : (s.conclude r o why).waveCounter = s.waveCounter := State.modMember_waveCounter ..
@[simp] theorem conclude_epoch : (s.conclude r o why).epoch = s.epoch := State.modMember_epoch ..
@[simp] theorem conclude_events : (s.conclude r o why).events = s.events := State.modMember_events ..
@[simp] theorem conclude_zones : (s.conclude r o why).zones = s.zones := State.modMember_zones ..
@[simp] theorem conclude_zone (z : ZoneId) : (s.conclude r o why).zone z = s.zone z :=
  zone_congr (conclude_zones s r o why) z

/-- The decision of a member changes the wave record in that member alone (R74). -/
theorem conclude_wave : (s.conclude r o why).wave = (s.modMember r fun m => m.decided o why).wave := rfl

/-- The decision of a member writes its robot's last outcome and reason (R10, R74). -/
@[simp] theorem conclude_robot (q : RobotNo) : (s.conclude r o why).robot q =
    if r = q then { s.robot q with lastOutcome := o, lastReason := why } else s.robot q := by
  show ((s.modMember r _).setLast r o why).robot q = _
  rw [State.setLast, robot_modRobot, robot_modMember]

/-- The decided member's robot leaves the poll cycle of its line (R95). -/
theorem conclude_line (l : LineNo) : (s.conclude r o why).line l =
    if (s.robot r).static.line = l then
      { s.line l with cycle := (s.line l).cycle.filter fun p => p.robot ≠ r }
    else s.line l := by
  have line : ((s.modMember r fun m => m.decided o why).setLast r o why).lineOf r = (s.robot r).static.line := by
    simp [State.lineOf, State.setLast]
  show (State.leaveCycle ((s.modMember r fun m => m.decided o why).setLast r o why) r).line l = _
  have kept : ((s.modMember r fun m => m.decided o why).setLast r o why).line l = s.line l :=
    line_modMember s r (fun m => m.decided o why) l
  rw [State.leaveCycle, line_modLine, line, kept]

theorem takeZones_robots (zs : List ZoneId) : (s.takeZones r zs).robots = s.robots := by
  induction zs generalizing s with
  | nil => rfl
  | cons z zs ih => exact ih _

end Sys2Proof.Machine
end

section
/-!
SUPPORT. A step through its parts, said once for every law that reads only the records: the robots, the zones, the moves and the
wave. Such a law is kept by every step when the Wave Controller, the requests and the resets keep it.
-/

namespace Sys2Proof.Machine

/-- `t` holds the records that `s` holds: robots, zones, move records and the wave. -/
structure SameRecords (s t : State) : Prop where
  robots : t.robots = s.robots
  zones : t.zones = s.zones
  openWave : t.openWave = s.openWave
  deferred : t.deferred = s.deferred
  wave : t.wave = s.wave
  waveCounter : t.waveCounter = s.waveCounter

theorem SameRecords.refl (s : State) : SameRecords s s := ⟨rfl, rfl, rfl, rfl, rfl, rfl⟩

/-- A law of the records that every part of a step keeps: the rules that judge, those of the wave, the requests and the resets. -/
structure KeptByParts (P : State → Prop) : Prop where
  apart : ∀ s t, SameRecords s t → P s → P t
  judgeEnd : ∀ s l k stale en, P s → P (judgeEnd s l k stale en)
  inFlight : ∀ s r, P s → P (s.setDelivery r .inFlight)
  loseMembers : ∀ s l, P s → P (loseMembers s l)
  overrunExpired : ∀ s r, P s → P (overrunExpired s r)
  waveMark : ∀ s, P s → P (waveMark s)
  perform : ∀ s q, P s → P (perform s q).state
  controllerReset : ∀ s, P s → P (controllerReset s)
  reset : P State.reset

namespace KeptByParts

variable {P : State → Prop} {s : State} {l : LineNo}

theorem ite {p : Prop} [Decidable p] {a b : State} (ha : P a) (hb : P b) : P (if p then a else b) := by
  split <;> assumption

theorem modLine (h : KeptByParts P) (f : Line → Line) (hs : P s) : P (s.modLine l f) :=
  h.apart s _ ⟨rfl, rfl, rfl, rfl, rfl, rfl⟩ hs

theorem raise (h : KeptByParts P) (c : EventClass) (d : Half) (hs : P s) : P (s.raise c d) :=
  h.apart s _ ⟨rfl, rfl, rfl, rfl, rfl, rfl⟩ hs

theorem setTxn (h : KeptByParts P) (st : EngineState) (x : Txn) (hs : P s) : P (s.setTxn l st x) := h.modLine _ hs

theorem setTrunk (h : KeptByParts P) (x : Trunk) (hs : P s) : P { s with trunk := x } :=
  h.apart s _ ⟨rfl, rfl, rfl, rfl, rfl, rfl⟩ hs

/-! ### The Line Engine -/

theorem startUrgent (h : KeptByParts P) (x : UrgentEntry) (rest : List UrgentEntry) (hs : P s) :
    P (startUrgent s l x rest) := by
  unfold Machine.startUrgent
  dsimp only
  split <;> exact h.modLine _ (h.modLine _ hs)

theorem startNormal (h : KeptByParts P) (x : NormalEntry) (rest : List NormalEntry) (hs : P s) :
    P (startNormal s l x rest) := by
  unfold Machine.startNormal
  dsimp only
  split
  · split
    · exact h.modLine _ hs
    · exact h.modLine _ (h.inFlight _ _ (h.modLine _ hs))
  · exact h.modLine _ (h.modLine _ hs)

theorem arbiter (h : KeptByParts P) (hs : P s) : P (arbiter s l) := by
  unfold Machine.arbiter
  refine ite ?_ hs
  unfold Machine.arbiterChoice
  dsimp only
  split
  · exact h.modLine _ (h.modLine _ hs)
  · split
    · exact h.modLine _ (h.modLine _ hs)
    · split
      · exact h.startUrgent _ _ hs
      · split
        · exact h.startNormal _ _ hs
        · split
          · exact h.modLine _ hs
          · exact hs

theorem finishTxn (h : KeptByParts P) (x : Txn) (en : TxnEnd) (hs : P s) : P (finishTxn s l x en) :=
  h.judgeEnd _ _ _ _ _ (h.modLine _ hs)

theorem attemptFailed (h : KeptByParts P) (x : Txn) (f : FrameKind) (n : Nat) (hs : P s) :
    P (attemptFailed s l x f n) := by
  have ending : P (beginEnding s l x) := h.setTxn _ _ hs
  have short : P (Machine.attemptFailed.shortFailed s l x f n) := ite (h.modLine _ hs) (h.finishTxn _ _ hs)
  cases f with
  | call => exact ite (h.modLine _ hs) ending
  | body | readRequest => exact ending
  | clear | halt | poll => exact short
  | endFrame | go | haltAll => exact hs

theorem takeAnswer (h : KeptByParts P) (x : Txn) (f : FrameKind) (a : Answer) (hs : P s) : P (takeAnswer s l x f a) := by
  cases a with
  | ready => exact h.setTxn _ _ hs
  | notReady => exact h.attemptFailed _ _ _ hs
  | retry => exact ite (h.setTxn _ _ hs) (h.setTxn _ _ hs)
  | accept | refuse | poll | status => exact h.finishTxn _ _ hs

theorem garbledAnswer (h : KeptByParts P) (x : Txn) (f : FrameKind) (hs : P s) : P (garbledAnswer s l x f) :=
  h.attemptFailed _ _ _ (h.modLine _ (h.modLine _ hs))

theorem residueAnswer (h : KeptByParts P) (v : Bool) (hs : P s) : P (residueAnswer s l v) :=
  ite (h.modLine _ hs) (h.modLine _ (h.modLine _ hs))

theorem receiveAnswer (h : KeptByParts P) (a : Option Answer) (hs : P s) : P (receiveAnswer s l a) := by
  have touched : P (s.touchLine l) := h.modLine _ hs
  have judge : ∀ x f since, P (Machine.receiveAnswer.judgeAnswer s l a (s.touchLine l) x f since) := by
    intro x f since
    unfold Machine.receiveAnswer.judgeAnswer
    split
    · exact h.garbledAnswer _ _ touched
    · exact ite (h.takeAnswer _ _ _ (h.modLine _ touched)) (h.garbledAnswer _ _ touched)
  unfold Machine.receiveAnswer
  dsimp only
  split
  · split
    · exact h.residueAnswer _ touched
    · exact touched
  · split
    · exact touched
    · split
      · exact judge _ _ _
      · exact touched

theorem cutShort (h : KeptByParts P) (b : Bool) (hs : P s) : P (cutShort s l b) := by
  unfold Machine.cutShort
  dsimp only
  split
  · split
    · exact ite hs (h.residueAnswer _ (h.modLine _ hs))
    all_goals exact hs
  · split
    · exact hs
    · split
      · exact ite hs (h.garbledAnswer _ _ (h.modLine _ hs))
      all_goals exact hs

theorem beginAnswer (h : KeptByParts P) (hs : P s) : P (beginAnswer s l) := by
  have touched : P (s.touchLine l) := h.modLine _ hs
  unfold Machine.beginAnswer
  dsimp only
  split
  · split
    · exact h.modLine _ touched
    · exact touched
  · split
    · exact touched
    · split
      · exact h.modLine _ touched
      · exact touched

theorem waitSilence (h : KeptByParts P) (hs : P s) : P (waitSilence s l) := by
  have silent : ∀ x f, P (silentWait s l x f) := fun x f =>
    ite (h.loseMembers _ _ (h.raise _ _ (h.modLine _ (h.modLine _ hs)))) (h.attemptFailed _ _ _ (h.modLine _ hs))
  unfold Machine.waitSilence
  split
  · exact hs
  · split
    · exact ite (silent _ _) hs
    all_goals exact hs

theorem frameSent (h : KeptByParts P) (hs : P s) : P (frameSent s l) := by
  have touched : P (s.touchLine l) := h.modLine _ hs
  unfold Machine.frameSent
  dsimp only
  split
  · split
    · exact ite (h.modLine _ touched) hs
    · exact hs
  · split
    · exact hs
    · split
      · exact ite (h.modLine _ touched) hs
      · exact hs

theorem broadcastEnds (h : KeptByParts P) (hs : P s) : P (broadcastEnds s l) := by
  have touched : P (s.touchLine l) := h.modLine _ hs
  unfold Machine.broadcastEnds
  dsimp only
  split
  · exact ite (ite (h.judgeEnd _ _ _ _ _ (h.modLine _ touched)) (h.modLine _ touched)) hs
  · split
    · exact hs
    · exact ite (h.finishTxn _ _ touched) hs

theorem endEnds (h : KeptByParts P) (hs : P s) : P (endEnds s l) := by
  have touched : P (s.touchLine l) := h.modLine _ hs
  unfold Machine.endEnds
  dsimp only
  split
  · exact ite (h.modLine _ touched) hs
  · split
    · exact hs
    · exact ite (h.finishTxn _ _ touched) hs

theorem nextFrame (h : KeptByParts P) (b : Bool) (hs : P s) : P (nextFrame s l b) := by
  have sends : ∀ x f, P (sendFrame s l x f) := fun x f =>
    ite (ite (h.modLine _ hs) (h.modLine _ (h.modLine _ hs))) (h.modLine _ (h.modLine _ hs))
  unfold Machine.nextFrame
  dsimp only
  split
  · exact hs
  · split
    · exact ite (ite (h.modLine _ hs) (sends _ _)) hs
    all_goals exact hs

/-- LINE_RESET hands every failure over (R135). -/
theorem resetLine (h : KeptByParts P) (hs : P s) : P (resetLine s l) := by
  have failures : ∀ (ks : List (TxnKind × Bool)) (s : State), P s →
      P (ks.foldl (fun s k => Machine.judgeEnd s l k.1 k.2 (.failed true)) s) := by
    intro ks
    induction ks with
    | nil => exact fun _ => id
    | cons k ks ih => exact fun s hs => ih _ (h.judgeEnd _ _ _ _ _ hs)
  exact failures _ _ (h.modLine _ hs)

/-! ### The timebase and the trunk port -/

theorem clock (h : KeptByParts P) (t : Time) (hs : P s) : P (s.clock t) := h.apart s _ ⟨rfl, rfl, rfl, rfl, rfl, rfl⟩ hs

theorem takeMark (h : KeptByParts P) (n : Nat) (hs : P s) : P (takeMark s n) :=
  h.waveMark _ (h.apart s _ ⟨rfl, rfl, rfl, rfl, rfl, rfl⟩ hs)

theorem rePhase (h : KeptByParts P) (n : Nat) (hs : P s) : P (rePhase s n) :=
  h.apart s _ ⟨rfl, rfl, rfl, rfl, rfl, rfl⟩ hs

theorem takePulse (h : KeptByParts P) (hs : P s) : P (takePulse s) := by
  unfold Machine.takePulse
  dsimp only
  have measured := h.apart s
    { s with epoch := { s.epoch with
        offset := s.epoch.storedOffset (pulseResult s.epoch s.now).offset
        lock := (pulseResult s.epoch s.now).lock, mode := (pulseResult s.epoch s.now).mode } }
    ⟨rfl, rfl, rfl, rfl, rfl, rfl⟩ hs
  have slipped := ite (p := (pulseResult s.epoch s.now).lock = .slipped)
    (h.raise .epochSlip s.activeWaveNumber measured) measured
  split
  · exact slipped
  · exact h.takeMark _ slipped
  · exact h.rePhase _ slipped

theorem serve (h : KeptByParts P) (f : Frame) (hs : P s) : P (serve s f).state := by
  unfold Machine.serve
  split
  · exact hs
  · exact h.perform _ _ hs

theorem take (h : KeptByParts P) (f : Frame) (hs : P s) : P (take s f) := h.setTrunk _ (h.serve f hs)

theorem dispatchNext (h : KeptByParts P) (hs : P s) : P (dispatchNext s) := by
  unfold Machine.dispatchNext
  split
  · exact h.take _ (h.setTrunk _ hs)
  · exact hs
  · exact hs

theorem acceptFrame (h : KeptByParts P) (f : Frame) (hs : P s) : P (acceptFrame s f) := by
  refine h.dispatchNext ?_
  unfold Machine.offerFrame
  split <;> exact h.apart s _ ⟨rfl, rfl, rfl, rfl, rfl, rfl⟩ hs

theorem skipFrame (h : KeptByParts P) (hs : P s) : P (skipFrame s) := h.apart s _ ⟨rfl, rfl, rfl, rfl, rfl, rfl⟩ hs

theorem submit (h : KeptByParts P) (f : Frame) (hs : P s) : P (submit s f) := by
  unfold Machine.submit
  split
  · exact hs
  · exact ite (h.skipFrame hs) (h.acceptFrame _ hs)
  · exact ite (h.skipFrame hs) (h.acceptFrame _ hs)

theorem frameComplete (h : KeptByParts P) (f : Frame) (check : Half) (hs : P s) : P (frameComplete s f check) := by
  unfold Machine.frameComplete
  split
  · exact hs
  · exact hs
  · exact ite (h.skipFrame hs) (ite (h.acceptFrame _ hs) (h.apart s _ ⟨rfl, rfl, rfl, rfl, rfl, rfl⟩ hs))

theorem replyEnds (h : KeptByParts P) (hs : P s) : P (replyEnds s) := by
  unfold Machine.replyEnds
  split
  · exact hs
  · exact h.dispatchNext (h.setTrunk _ (ite (h.controllerReset _ hs) hs))

/-- The events of the receiving half that change the port alone. -/
theorem portEvent (h : KeptByParts P) (hs : P s) :
    (∀ n, P (lengthOversize s n)) ∧ P (gapAbandon s) ∧ P (skipQuiet s) ∧ P (frameBegins s) ∧ P (holdReset s) := by
  have port : ∀ t, SameRecords s t → P t := fun t e => h.apart s t e hs
  refine ⟨fun n => ?_, ?_, ?_, ?_, port _ ⟨rfl, rfl, rfl, rfl, rfl, rfl⟩⟩
  · unfold lengthOversize
    split
    · exact hs
    · exact hs
    · exact ite (h.skipFrame hs) hs
  · unfold gapAbandon
    split
    · exact hs
    · exact hs
    · exact port _ ⟨rfl, rfl, rfl, rfl, rfl, rfl⟩
  · unfold skipQuiet
    split
    · exact hs
    · exact hs
    · exact port _ ⟨rfl, rfl, rfl, rfl, rfl, rfl⟩
  · unfold frameBegins
    split
    · exact port _ ⟨rfl, rfl, rfl, rfl, rfl, rfl⟩
    · exact hs
    · exact hs

/-! ### The step -/

/-- Every command keeps a law that every part keeps. -/
theorem exec (h : KeptByParts P) (c : Instr) {t : State} (hs : P s) (ht : exec c s = .next t) : P t := by
  obtain ⟨oversize, gap, quiet, begins, held⟩ := h.portEvent hs
  have timed (t : Time) : P (s.clock t) := h.clock t hs
  cases c <;> obtain rfl := Host.Outcome.next.inj ht
  case trunkFrameComplete => exact ite hs (h.frameComplete _ _ hs)
  case trunkLengthOversize n => exact ite hs (oversize n)
  case trunkGapAbandon => exact ite hs gap
  case trunkSkipQuiet => exact ite hs quiet
  case replySent => exact ite hs (h.replyEnds hs)
  case resetNAssert => exact ite hs held
  case powerOnReset => exact h.apart State.reset _ ⟨rfl, rfl, rfl, rfl, rfl, rfl⟩ h.reset
  case startCharacter => exact ite hs begins
  case epochMark => exact ite hs (h.takeMark _ (timed _))
  case epochPulse => exact ite hs (h.takePulse (timed _))
  case lineArbiterChoose => exact ite hs (h.arbiter (timed _))
  case lineFrameSent => exact ite hs (h.frameSent (timed _))
  case broadcastSent => exact ite hs (h.broadcastEnds (timed _))
  case nextFrameSend | endFrameSend => exact ite hs (h.nextFrame _ (timed _))
  case endSent => exact ite hs (h.endEnds (timed _))
  case answerReady | answerNotReady | answerAccept | answerRetry | answerRefuse | answerPoll | answerStatus |
      answerGarbled =>
    exact ite hs (h.receiveAnswer _ (timed _))
  case answerWaitSilence => exact ite hs (h.waitSilence (timed _))
  case answerCharGap | readAnswerDeadline => exact ite hs (h.cutShort _ (timed _))
  case strayCharacter => exact ite hs (h.modLine _ (timed _))
  case answerBegun => exact ite hs (h.beginAnswer (timed _))
  case overrunDeadline => exact ite hs (h.overrunExpired _ _ (timed _))
  all_goals exact ite hs (h.submit _ hs)

/-- Every step keeps a law that every part keeps. -/
theorem step (h : KeptByParts P) {t : State} (ht : step s = .next t) (hs : P s) : P t := by
  unfold Machine.step at ht
  split at ht
  · obtain rfl := Host.Outcome.next.inj ht
    exact hs
  · refine h.exec _ ?_ ht
    exact h.apart s _ ⟨rfl, rfl, rfl, rfl, rfl, rfl⟩ hs

end KeptByParts

end Sys2Proof.Machine
end

section
/-!
SUPPORT. What a LOAD of robot records and a LOAD of zone records test and write, one rule for each function.
-/

namespace Sys2Proof.Machine

/-! ### The robots of a run -/

theorem runOf_succ (first count : Nat) : runOf first (count + 1) = runOf first count ++ [first + count] := by
  simp [runOf, List.range_succ]

theorem robotsIn_val {first count : Nat} (h : first + count ≤ 480) :
    (robotsIn first count).map Fin.val = runOf first count := by
  induction count with
  | zero => rfl
  | succ n ih =>
    have last : first + n < 480 := by omega
    rw [robotsIn, runOf_succ, List.filterMap_append, List.map_append]
    exact congrArg₂ _ (ih (by omega)) (by simp [index?_of_lt last])

theorem robotsIn_length {first count : Nat} (h : first + count ≤ 480) : (robotsIn first count).length = count := by
  rw [← List.length_map Fin.val, robotsIn_val h]; simp [runOf]

theorem robotsIn_getElem {first count : Nat} (h : first + count ≤ 480) {i : Nat}
    (hi : i < (robotsIn first count).length) : (robotsIn first count)[i].val = first + i := by
  have e : ((robotsIn first count).map Fin.val)[i]'(by simpa using hi) = first + i := by
    simp only [robotsIn_val h]; simp [runOf]
  simpa using e

theorem mem_robotsIn {first count : Nat} {r : RobotNo} :
    r ∈ robotsIn first count ↔ first ≤ r.val ∧ r.val < first + count := by
  simp only [robotsIn, runOf, List.mem_filterMap, List.mem_map, List.mem_range]
  constructor
  · rintro ⟨_, ⟨i, hi, rfl⟩, he⟩
    unfold index? at he
    split at he
    · obtain rfl := Option.some.inj he
      simp only; omega
    · cases he
  · rintro ⟨h1, h2⟩
    exact ⟨r.val, ⟨r.val - first, by omega, by omega⟩, index?_of_lt r.isLt⟩

theorem robotsIn_nodup {first count : Nat} (h : first + count ≤ 480) : (robotsIn first count).Nodup := by
  refine List.Nodup.of_map Fin.val ?_
  rw [robotsIn_val h, runOf]
  exact List.Nodup.map (fun a b e => Nat.add_left_cancel e) List.nodup_range

/-! ### Records written -/

variable (s : State)

theorem withdraw_eq (r : RobotNo) : s.withdraw r = { s with
    openWave := (s.withdraw r).openWave, deferred := (s.withdraw r).deferred, robots := (s.withdraw r).robots } := by
  unfold State.withdraw; split <;> rfl

/-- Nothing to withdraw, nothing withdrawn: the lists hold no record of the robot afterwards (R30). -/
theorem withdraw_lists (r : RobotNo) :
    (s.withdraw r).openWave = s.openWave.filter (fun m => m.robot ≠ r) ∧
      (s.withdraw r).deferred = s.deferred.filter fun d => d.record.robot ≠ r := by
  unfold State.withdraw
  split
  · exact ⟨rfl, rfl⟩
  · rename_i h
    simp only [Bool.or_eq_true, not_or, Bool.not_eq_true, State.inOpen, State.inDeferred, List.any_eq_false,
      decide_eq_true_eq] at h
    exact ⟨(List.filter_eq_self.2 fun m hm => by simpa using h.1 m hm).symm,
      (List.filter_eq_self.2 fun d hd => by simpa using h.2 d hd).symm⟩

theorem withdraw_robot (r q : RobotNo) : (s.withdraw r).robot q =
    if r = q ∧ s.holdsMove r = true then { s.robot q with lastOutcome := .withdrawn, lastReason := .none }
    else s.robot q := by
  unfold State.withdraw State.holdsMove
  by_cases h : (s.inOpen r || s.inDeferred r) = true
  · rw [if_pos h, State.setLast, robot_modRobot]
    by_cases hq : r = q
    · rw [if_pos hq, if_pos ⟨hq, h⟩]; rfl
    · rw [if_neg hq, if_neg fun k => hq k.1]; rfl
  · rw [if_neg h, if_neg fun k => h k.2]

/-- Withdrawing a robot's move leaves the others'. -/
theorem withdraw_holdsMove {r q : RobotNo} (hq : r ≠ q) : (s.withdraw r).holdsMove q = s.holdsMove q := by
  obtain ⟨o, d⟩ := withdraw_lists s r
  unfold State.holdsMove State.inOpen State.inDeferred
  rw [o, d, List.any_filter, List.any_filter]
  congr 1 <;> congr 1 <;> funext x <;> simp only [Bool.and_eq_right_iff_imp, decide_eq_true_eq] <;> rintro rfl <;>
    simpa using hq.symm

/-- A record written by a ROBOT load (R6). -/
theorem applyRobot_robot (r q : RobotNo) (b : RobotStatic) : (applyRobot s r b).robot q =
    if r = q then
      { static := b, slot := if b.present then .uncertain else .absent, believed := Position.zero, reported := Pair.zero,
        reportedValid := false, fault := 0, stack := [], rest := .uncertain,
        lastOutcome := if s.holdsMove r then .withdrawn else (s.robot q).lastOutcome,
        lastReason := if s.holdsMove r then .none else (s.robot q).lastReason }
    else s.robot q := by
  rw [applyRobot, robot_modRobot, withdraw_robot]
  by_cases hq : r = q
  · subst hq
    by_cases h : s.holdsMove r = true <;> simp [h]
  · simp [hq]

theorem applyRobot_eq (r : RobotNo) (b : RobotStatic) : applyRobot s r b = { s with
    openWave := (applyRobot s r b).openWave, deferred := (applyRobot s r b).deferred
    robots := (applyRobot s r b).robots } := by
  rw [applyRobot, withdraw_eq]; rfl

theorem applyRobots_eq (xs : List (RobotNo × RobotStatic)) : applyRobots s xs = { s with
    openWave := (applyRobots s xs).openWave, deferred := (applyRobots s xs).deferred
    robots := (applyRobots s xs).robots } := by
  induction xs generalizing s with
  | nil => rfl
  | cons x xs ih =>
    exact (ih (applyRobot s x.1 x.2)).trans (congrArg
      (fun u : State => { u with
        openWave := (applyRobots s (x :: xs)).openWave, deferred := (applyRobots s (x :: xs)).deferred
        robots := (applyRobots s (x :: xs)).robots })
      (applyRobot_eq s x.1 x.2))

theorem applyRobot_holdsMove {r q : RobotNo} (b : RobotStatic) (hq : r ≠ q) :
    (applyRobot s r b).holdsMove q = s.holdsMove q := withdraw_holdsMove s hq

theorem applyRobots_robot_of_notMem {xs : List (RobotNo × RobotStatic)} {q : RobotNo} (h : q ∉ xs.map Prod.fst) :
    (applyRobots s xs).robot q = s.robot q := by
  induction xs generalizing s with
  | nil => rfl
  | cons x xs ih =>
    simp only [List.map_cons, List.mem_cons, not_or] at h
    exact (ih (applyRobot s x.1 x.2) h.2).trans (by rw [applyRobot_robot, if_neg (Ne.symm h.1)])

theorem applyRobots_robot_of_mem {xs : List (RobotNo × RobotStatic)} (hx : (xs.map Prod.fst).Nodup) {q : RobotNo}
    {b : RobotStatic} (h : (q, b) ∈ xs) : (applyRobots s xs).robot q = (applyRobot s q b).robot q := by
  induction xs generalizing s with
  | nil => exact absurd h List.not_mem_nil
  | cons x xs ih =>
    obtain ⟨hnot, hxs⟩ := List.nodup_cons.1 hx
    rcases List.mem_cons.1 h with rfl | h
    · exact applyRobots_robot_of_notMem _ hnot
    · have hq : x.1 ≠ q := by rintro rfl; exact hnot (List.mem_map.2 ⟨_, h, rfl⟩)
      refine (ih (applyRobot s x.1 x.2) hxs h).trans ?_
      simp only [applyRobot_robot, if_true, if_neg hq, applyRobot_holdsMove s x.2 hq]

/-- The lists after a ROBOT load hold no record of its robots (R6). -/
theorem applyRobots_lists (xs : List (RobotNo × RobotStatic)) :
    (applyRobots s xs).openWave = s.openWave.filter (fun m => m.robot ∉ xs.map Prod.fst) ∧
      (applyRobots s xs).deferred = s.deferred.filter fun d => d.record.robot ∉ xs.map Prod.fst := by
  induction xs generalizing s with
  | nil => exact ⟨by simp [applyRobots], by simp [applyRobots]⟩
  | cons x xs ih =>
    obtain ⟨o, d⟩ := ih (applyRobot s x.1 x.2)
    obtain ⟨o', d'⟩ := withdraw_lists s x.1
    have here : (applyRobot s x.1 x.2).openWave = (s.withdraw x.1).openWave ∧
      (applyRobot s x.1 x.2).deferred = (s.withdraw x.1).deferred := ⟨rfl, rfl⟩
    constructor
    · refine o.trans ?_
      rw [here.1, o', List.filter_filter]
      exact List.filter_congr fun m _ => by
        rw [List.map_cons, ← Bool.decide_and]
        exact decide_eq_decide.2 (by rw [List.mem_cons, not_or, and_comm])
    · refine d.trans ?_
      rw [here.2, d', List.filter_filter]
      exact List.filter_congr fun m _ => by
        rw [List.map_cons, ← Bool.decide_and]
        exact decide_eq_decide.2 (by rw [List.mem_cons, not_or, and_comm])

/-- The records that a ROBOT load of a run writes (R6). -/
theorem applyRobots_run {first count : Nat} (h : first + count ≤ 480) {bs : List RobotStatic} (hb : bs.length = count) :
    (∀ r : RobotNo, ¬(first ≤ r.val ∧ r.val < first + count) →
      (applyRobots s ((robotsIn first count).zip bs)).robot r = s.robot r) ∧
    ∀ (r : RobotNo) (b : RobotStatic), first ≤ r.val → r.val < first + count → bs[r.val - first]? = some b →
      (applyRobots s ((robotsIn first count).zip bs)).robot r = (applyRobot s r b).robot r := by
  have keys : ((robotsIn first count).zip bs).map Prod.fst = robotsIn first count :=
    List.map_fst_zip (by rw [robotsIn_length h, hb])
  refine ⟨fun r hr => applyRobots_robot_of_notMem s ?_, fun r b h1 h2 hi => applyRobots_robot_of_mem s ?_ ?_⟩
  · rwa [keys, mem_robotsIn]
  · rw [keys]; exact robotsIn_nodup h
  · have here : r.val - first < (robotsIn first count).length := by rw [robotsIn_length h]; omega
    have him : (robotsIn first count)[r.val - first] = r := Fin.ext (by rw [robotsIn_getElem h]; omega)
    obtain ⟨hlt, rfl⟩ := List.getElem?_eq_some_iff.1 hi
    have both : r.val - first < ((robotsIn first count).zip bs).length := by simp only [List.length_zip]; omega
    refine List.mem_iff_getElem.2 ⟨_, both, ?_⟩
    rw [List.getElem_zip, him]

/-! ### The tests of R5 -/

/-- A present record passes all the tests of R5 when none fails. -/
theorem robotRecordFault_none {s : State} {first count r : Nat} {before : List RawRobot} {x : RawRobot}
    (h : robotRecordFault s first count before r x = none) (hp : x.present = true) :
    x.badAddr = false ∧ duplicateAddr s first count before x = false ∧ x.badLimit = false ∧ x.badGear = false ∧
      x.badLink s r = false ∧ x.badHome = false := by
  unfold robotRecordFault at h
  rw [if_neg (by rw [hp]; decide)] at h
  by_cases h1 : x.badAddr = true
  · rw [if_pos h1] at h; cases h
  rw [if_neg h1] at h
  by_cases h2 : duplicateAddr s first count before x = true
  · rw [if_pos h2] at h; cases h
  rw [if_neg h2] at h
  by_cases h3 : x.badLimit = true
  · rw [if_pos h3] at h; cases h
  rw [if_neg h3] at h
  by_cases h4 : x.badGear = true
  · rw [if_pos h4] at h; cases h
  rw [if_neg h4] at h
  by_cases h5 : x.badLink s r = true
  · rw [if_pos h5] at h; cases h
  rw [if_neg h5] at h
  by_cases h6 : x.badHome = true
  · rw [if_pos h6] at h; cases h
  simp only [Bool.not_eq_true] at h1 h2 h3 h4 h5 h6
  exact ⟨h1, h2, h3, h4, h5, h6⟩

/-- Every record of a run without a failure passes its tests, with the records before it (R5). -/
theorem robotRangeFault_none {s : State} {first count : Nat} {before : List RawRobot} {r : Nat} {xs : List RawRobot}
    (h : robotRangeFault s first count before r xs = none) {i : Nat} {x : RawRobot} (hi : xs[i]? = some x) :
    robotRecordFault s first count (before ++ xs.take i) (r + i) x = none := by
  induction xs generalizing before r i with
  | nil => cases hi
  | cons y ys ih =>
    unfold robotRangeFault at h
    split at h
    · cases h
    · rename_i hy
      cases i with
      | zero =>
        obtain rfl := Option.some.inj hi
        simpa using hy
      | succ i =>
        have := ih h (i := i) hi
        rwa [List.append_assoc, List.singleton_append, Nat.add_right_comm, Nat.add_assoc r i 1] at this

/-- A held record outside the range stands at another address than a loaded one that is no DUPLICATE (R5). -/
theorem duplicateAddr_held {s : State} {first count : Nat} {before : List RawRobot} {x : RawRobot}
    (h : duplicateAddr s first count before x = false) {q : RobotNo} (hq : ¬(first ≤ q.val ∧ q.val < first + count)) :
    x.heldAddress (s.robot q).static = false := by
  simp only [duplicateAddr, Bool.or_eq_false_iff, Bool.not_eq_false', List.isEmpty_iff] at h
  by_contra hc
  have : q.val ∈ indicesFrom (fun i b => !(decide (first ≤ i) && decide (i < first + count)) && x.heldAddress b.static) 0
      s.robots.toList := by
    rw [mem_indicesFrom]
    refine ⟨q.val, by simp, by simp, ?_⟩
    have e : x.heldAddress (s.robots.toList[q.val]'(by simp)).static = true := by
      simpa [State.robot] using hc
    simp only [Bool.and_eq_true, Bool.not_eq_true', Bool.and_eq_false_iff, decide_eq_false_iff_not]
    exact ⟨by omega, e⟩
  rw [h.2] at this
  exact absurd this List.not_mem_nil

theorem duplicateAddr_before {s : State} {first count : Nat} {before : List RawRobot} {x : RawRobot}
    (h : duplicateAddr s first count before x = false) {y : RawRobot} (hy : y ∈ before) : x.sameAddress y = false := by
  simp only [duplicateAddr, Bool.or_eq_false_iff, List.any_eq_false] at h
  simpa using h.1 y hy

/-- A link that is not bad names a zone whose entry lists the robot, with its window and threshold in range (R4, R5). -/
theorem badLinkFor_false {s : State} {r : Nat} {k : RawLink} (h : badLinkFor s r k = false) :
    inHub k.ws = true ∧ inHub k.we = true ∧ inElbow k.thr = true ∧ ∃ z : ZoneId, z.val = k.zone.toNat ∧
      linkOf k = some ⟨z, k.ws, k.we, k.thr⟩ ∧
      ∀ q : RobotNo, q.val = r → (s.zone z).names q = true := by
  simp only [badLinkFor, Bool.or_eq_false_iff, Bool.not_eq_false'] at h
  obtain ⟨⟨⟨h1, h2⟩, h3⟩, h4⟩ := h
  refine ⟨h1, h2, h3, ?_⟩
  unfold linkOf
  split at h4
  · cases h4
  · rename_i z hz
    refine ⟨z, ?_, by rw [hz], fun q hq => ?_⟩
    · unfold index? at hz
      split at hz
      · rw [← Option.some.inj hz]
      · cases hz
    · simp only [Bool.not_eq_false', Bool.or_eq_true, Option.any_eq_true, decide_eq_true_eq] at h4
      simp only [Zone.names, Bool.or_eq_true, decide_eq_true_eq]
      rcases h4 with ⟨m, hm, e⟩ | ⟨m, hm, e⟩
      · exact .inl (hm.trans (congrArg _ (Fin.ext (e.trans hq.symm))))
      · exact .inr (hm.trans (congrArg _ (Fin.ext (e.trans hq.symm))))

theorem repeatsZone_iff (ks : List RawLink) : repeatsZone ks = false ↔ (ks.map RawLink.zone).Nodup := by
  induction ks with
  | nil => simp [repeatsZone]
  | cons k ks ih =>
    simp only [repeatsZone, Bool.or_eq_false_iff, ih, List.map_cons, List.nodup_cons, List.any_eq_false, List.mem_map,
      decide_eq_true_eq, not_exists, not_and]

/-- The links that a record gives its robot, none of them bad. -/
theorem filterMap_linkOf {s : State} {r : Nat} {ks : List RawLink} (h : ∀ k ∈ ks, badLinkFor s r k = false) :
    (ks.filterMap linkOf).map (fun k => k.zone.val) = ks.map fun k => k.zone.toNat := by
  induction ks with
  | nil => rfl
  | cons k ks ih =>
    obtain ⟨-, -, -, z, hz, hl, -⟩ := badLinkFor_false (h k List.mem_cons_self)
    rw [List.filterMap_cons_some hl, List.map_cons, List.map_cons, ih fun q hq => h q (List.mem_cons_of_mem _ hq)]
    exact congrArg (· :: _) hz

theorem rawRobot_links_length (bs : List Byte) : (rawRobot bs).links.length ≤ Config.linksMax := by
  simp only [rawRobot, List.length_map, List.length_range]; omega

theorem static_present {x : RawRobot} : x.static.present = x.present := by
  unfold RawRobot.static
  split
  · rename_i h; exact h.symm
  · rename_i h; exact (Bool.not_eq_true _ ▸ h).symm

/-- The address of a loaded record that is not BADADDR. -/
theorem static_address {x : RawRobot} (hp : x.present = true) (h : x.badAddr = false) :
    x.static.line.val = x.line.toNat ∧ x.static.drop = x.drop := by
  simp only [RawRobot.badAddr, Bool.or_eq_false_iff, decide_eq_false_iff_not, Nat.not_le] at h
  unfold RawRobot.static
  rw [if_pos hp]
  exact ⟨by rw [index?_of_lt h.1.1]; rfl, rfl⟩

/-- The static fields of a record that passes the tests of R5 lie in their ranges. -/
theorem staticOk_of_tests {s : State} {first count r : Nat} {before : List RawRobot} {bs : List Byte}
    (h : robotRecordFault s first count before r (rawRobot bs) = none) (hp : (rawRobot bs).present = true) :
    StaticOk (rawRobot bs).static := by
  obtain ⟨addr, -, limit, gear, link, home⟩ := robotRecordFault_none h hp
  have links := rawRobot_links_length bs
  generalize rawRobot bs = x at *
  have fence : (fenceMode? x.fenceMode).isSome = true := by
    simp only [RawRobot.badLimit, Bool.or_eq_false_iff] at limit
    simpa using limit.1.1.2
  simp only [RawRobot.badHome, Bool.or_eq_false_iff, decide_eq_false_iff_not, List.any_eq_false, decide_eq_true_eq,
    Int.not_lt, Int.not_le] at home
  obtain ⟨⟨home, free⟩, below⟩ := home
  simp only [RawRobot.badAddr, Bool.or_eq_false_iff, decide_eq_false_iff_not] at addr
  simp only [RawRobot.badLimit, Bool.or_eq_false_iff, Bool.not_eq_false', decide_eq_false_iff_not, inHub, inElbow,
    Bool.and_eq_true, decide_eq_true_eq] at limit
  simp only [RawRobot.badGear, Bool.or_eq_false_iff, decide_eq_false_iff_not] at gear
  simp only [RawRobot.badLink, Bool.or_eq_false_iff, List.any_eq_false, Bool.not_eq_true] at link
  have static : x.static = { RobotStatic.absent with
      present := true, line := x.static.line, drop := x.drop, enable := x.static.enable, priority := x.static.priority,
      hubCurve := x.hubCurve, elbowCurve := x.elbowCurve, gearHub := x.gearHub, gearElbow := x.gearElbow,
      coupling := x.coupling, offHub := x.offHub, offElbow := x.offElbow, hubMin := x.hubMin, hubMax := x.hubMax,
      elbowMin := x.elbowMin, elbowMax := x.elbowMax, fenceMode := x.static.fenceMode, fs := x.fs, fe := x.fe,
      homeAngles := x.homeAngles, homeSteps := x.homeSteps, links := x.links.filterMap linkOf } := by
    unfold RawRobot.static; rw [if_pos hp]
  rw [static] at free ⊢
  refine ⟨?_, ?_, ?_, ?_, ?_, ?_, ?_, ?_, ?_, ?_, ?_, free⟩
  · dsimp only; omega
  · dsimp only; omega
  · dsimp only; omega
  · dsimp only; omega
  · dsimp only; omega
  · dsimp only; omega
  · simp only [inHub, Bool.and_eq_true, decide_eq_true_eq]; omega
  · exact Nat.le_trans (List.length_filterMap_le _ _) links
  · intro k hk
    obtain ⟨y, hy, hl⟩ := List.mem_filterMap.1 hk
    obtain ⟨ws, we, thr, z, -, hz, -⟩ := badLinkFor_false (link.1.2 y hy)
    obtain rfl := Option.some.inj (hl.symm.trans hz)
    exact ⟨ws, we, thr, below y hy⟩
  · dsimp only; omega
  · dsimp only; omega

/-! ### The tests of R58 -/

/-- A present robot that links to a zone is one of the members that the zone's record gives it (R58). -/
theorem orphanLink_false {s : State} {z : Nat} {a b : Option RobotNo} (h : orphanLink s z a b = false) {r : RobotNo}
    (hp : (s.robot r).static.present = true) {k : Link} (hk : k ∈ (s.robot r).static.links) (hz : k.zone.val = z) :
    a = some r ∨ b = some r := by
  simp only [orphanLink, Bool.not_eq_false', List.isEmpty_iff] at h
  by_contra hc
  rw [not_or] at hc
  have other {x : Option RobotNo} (hx : x ≠ some r) : x.any (fun q => decide (q.val = r.val)) = false := by
    cases x with
    | none => rfl
    | some q => simpa [Fin.ext_iff] using hx
  refine absurd ((mem_indicesFrom _ 0 s.robots.toList r.val).2 ⟨r.val, by simp, by simp, ?_⟩) (h ▸ List.not_mem_nil)
  have e : s.robots.toList[r.val]'(by simp) = s.robot r := by simp [State.robot]
  rw [e]
  simp only [Bool.and_eq_true, Bool.not_eq_true', other hc.1, other hc.2, hp, and_true, true_and]
  exact List.any_eq_true.2 ⟨k, hk, by simpa using hz⟩

/-- The members that the records of a run give their entries (R58). -/
theorem zoneRange_ok {s : State} {z : Nat} {xs : List (List Byte)} {ms : List (Option RobotNo × Option RobotNo)}
    (h : zoneRange s z xs = .ok ms) {i : Nat} {m : Option RobotNo × Option RobotNo} (hi : ms[i]? = some m) :
    ∃ x, xs[i]? = some x ∧ zoneMembers s (z + i) x = some m := by
  induction xs generalizing z ms i with
  | nil =>
    obtain rfl := Except.ok.inj h
    cases hi
  | cons x xs ih =>
    unfold zoneRange at h
    split at h
    · cases h
    · rename_i y hy
      split at h
      · cases h
      · rename_i ys hys
        obtain rfl := Except.ok.inj h
        cases i with
        | zero => exact ⟨x, rfl, by rw [← Option.some.inj hi]; exact hy⟩
        | succ i =>
          obtain ⟨v, hv, hm⟩ := ih hys (i := i) hi
          exact ⟨v, hv, by rwa [Nat.add_right_comm, Nat.add_assoc] at hm⟩

theorem zoneMembers_some {s : State} {z : Nat} {bs : List Byte} {m : Option RobotNo × Option RobotNo}
    (h : zoneMembers s z bs = some m) : orphanLink s z m.1 m.2 = false := by
  unfold zoneMembers at h
  split at h
  · split at h
    · cases h
    · rename_i hf
      obtain rfl := Option.some.inj h
      simp only [Bool.or_eq_true, not_or, Bool.not_eq_true] at hf
      exact hf.2
  · cases h

/-- An entry of the run with its new members, or as it was (R59). -/
theorem withMembers_cases (s : State) (first : Nat) (ms : List (Option RobotNo × Option RobotNo)) (i : Nat) (e : Zone) :
    withMembers s first ms i e = e ∨
      first ≤ i ∧ ∃ m, ms[i - first]? = some m ∧ withMembers s first ms i e = s.renamed e m.1 m.2 := by
  unfold withMembers
  split
  · rename_i hi
    split
    · rename_i m hm; exact .inr ⟨hi, m, hm, rfl⟩
    · exact .inl rfl
  · exact .inl rfl

/-! ### What the two loads leave -/

/-- A LOAD of robot records is refused with nothing changed, or writes its run (R5 to R7). -/
theorem loadRobots_state (first count : Nat) (records : List (List Byte)) :
    (loadRobots s first count records).state = s ∨
      robotRangeFault s first count [] first (records.map rawRobot) = none ∧ lockedRobot s first count = none ∧
      ∃ sel, (loadRobots s first count records).state =
        ((applyRobots s ((robotsIn first count).zip ((records.map rawRobot).map RawRobot.static))).modLines
          (fun e => e.dropStale fun r => decide (first ≤ r.val) && decide (r.val < first + count))).settle sel := by
  unfold loadRobots
  dsimp only
  split
  · exact .inl rfl
  · rename_i unlocked
    split
    · exact .inl rfl
    · rename_i passed
      exact .inr ⟨passed, unlocked, _, rfl⟩

/-- A LOAD of zone records is refused with nothing changed, or writes the members of its run (R58, R59). -/
theorem loadZones_state (first count : Nat) (records : List (List Byte)) :
    (loadZones s first count records).state = s ∨
      ∃ ms sel, zoneRange s first records = .ok ms ∧ (loadZones s first count records).state =
        State.settle { s with zones := mapTable (withMembers s first ms) s.zones } sel := by
  unfold loadZones
  split
  · exact .inl rfl
  · split
    · exact .inl rfl
    · rename_i ms passed
      exact .inr ⟨ms, _, passed, rfl⟩

/-- A LOAD that changes the records is one of robot or of zone records, whose run lies in its table (R164, R165). -/
theorem serveLoad_cases (s : State) (table : Byte) (first count : Half) (records : List Byte) :
    SameRecords s (serveLoad s table first count records).state ∨
    (∃ xs : List (List Byte), xs.length = count.toNat ∧ first.toNat + count.toNat ≤ 480 ∧
      (serveLoad s table first count records).state = (loadRobots s first.toNat count.toNat xs).state) ∨
    ∃ xs : List (List Byte), xs.length = count.toNat ∧
      (serveLoad s table first count records).state = (loadZones s first.toNat count.toNat xs).state := by
  unfold serveLoad
  split
  · exact .inl (.refl s)
  · rename_i size width shape
    split
    · exact .inl (.refl s)
    · rename_i inTable
      split
      · exact .inl (.refl s)
      · have run : (recordsOf records width count.toNat).length = count.toNat := by simp [recordsOf]
        unfold loadTable
        split
        · rename_i kind
          obtain ⟨rfl, -⟩ : 480 = size ∧ 152 = width := by simpa [loadShape, kind] using shape
          exact .inr (.inl ⟨_, run, by omega, rfl⟩)
        · exact .inl ⟨rfl, rfl, rfl, rfl, rfl, rfl⟩
        · exact .inl ⟨rfl, rfl, rfl, rfl, rfl, rfl⟩
        · exact .inr (.inr ⟨_, run, rfl⟩)
        · exact .inl ⟨rfl, rfl, rfl, rfl, rfl, rfl⟩
        · refine .inl ?_
          unfold loadEpochRecord
          split
          · exact .refl s
          · exact ⟨rfl, rfl, rfl, rfl, rfl, rfl⟩

end Sys2Proof.Machine
end

section
/-!
O7: the laws of the Robot Table. They read the static fields of the robots, but for the two flags of FLAGS, and the members of the
zones; only the loads of robot and zone records write those.
-/

namespace Sys2Proof.Machine

/-- `t` holds the robot and zone tables of `s`, but for the flags of present robots: ENABLE and PRIORITY are read by no law of the
Robot Table. -/
structure SameTable (s t : State) : Prop where
  robots : ∀ r, (t.robot r).static = (s.robot r).static ∨ (s.robot r).static.present = true ∧
    ∃ enable priority, (t.robot r).static = { (s.robot r).static with enable := enable, priority := priority }
  members : ∀ z, (t.zone z).memberA = (s.zone z).memberA ∧ (t.zone z).memberB = (s.zone z).memberB

namespace SameTable

variable {s t : State}

theorem of_judged (h : Judged s t) : SameTable s t := ⟨fun r => .inl (h.static r), h.members⟩

theorem refl (s : State) : SameTable s s := of_judged (.refl s)

theorem trans {u : State} (h : SameTable s t) (k : Judged t u) : SameTable s u where
  robots r := by rw [k.static r]; exact h.robots r
  members z := ⟨(k.members z).1.trans (h.members z).1, (k.members z).2.trans (h.members z).2⟩

theorem of_tables (robots : t.robots = s.robots) (zones : t.zones = s.zones) : SameTable s t where
  robots r := .inl (by rw [robot_congr robots])
  members z := by rw [zone_congr zones]; exact ⟨rfl, rfl⟩

theorem of_static (static : ∀ r, (t.robot r).static = (s.robot r).static) (zones : t.zones = s.zones) : SameTable s t where
  robots r := .inl (static r)
  members z := by rw [zone_congr zones]; exact ⟨rfl, rfl⟩

theorem withdraw (r : RobotNo) : SameTable s (s.withdraw r) :=
  of_static (fun q => by rw [withdraw_robot]; split <;> rfl) (by rw [withdraw_eq])

theorem placeRecord (m : MoveRecord) : SameTable s (s.placeRecord m) := ⟨(withdraw m.robot).robots, (withdraw m.robot).members⟩

theorem flagsRequest (first last : Half) (op mask : Byte) : SameTable s (flagsRequest s first last op mask).state := by
  unfold Machine.flagsRequest
  split
  · exact refl s
  · split
    · exact refl s
    · rename_i op _
      refine ⟨fun r => ?_, fun z => ⟨rfl, rfl⟩⟩
      simp only [State.robot]
      rw [mapTable_getElem_fin]
      split
      · unfold Robot.flagged
        split
        · exact .inl rfl
        · rename_i present
          exact .inr ⟨by simpa using present, _, _, rfl⟩
      · exact .inl rfl

/-- Requests other than the loads of robot and zone records keep the tables. -/
theorem withMover (r : RobotNo) (p : Byte) {f : Robot → ProfileNo → Served} (hf : ∀ b q, SameTable s (f b q).state) :
    SameTable s (withMover s r p f).state := by
  unfold Machine.withMover
  split
  · exact refl s
  · split
    · exact refl s
    · split
      · exact refl s
      · exact hf _ _

theorem withReachable (r : RobotNo) (h : SameTable s t) : SameTable s (withReachable s r t).state := by
  unfold Machine.withReachable
  split
  · exact refl s
  · split
    · exact refl s
    · exact h

theorem moveRequest (r : RobotNo) (h e : Word) (p : Byte) : SameTable s (moveRequest s r h e p).state := by
  refine withMover _ _ fun b q => ?_
  split
  · exact refl s
  · exact placeRecord _

theorem retraceRequest (r : RobotNo) (p : Byte) : SameTable s (retraceRequest s r p).state := by
  refine withMover _ _ fun b q => ?_
  split
  · exact refl s
  · exact placeRecord _

theorem cancelRequest (r : RobotNo) : SameTable s (cancelRequest s r).state := by
  unfold Machine.cancelRequest
  split
  · exact withdraw r
  · split
    · exact withdraw r
    · exact refl s

theorem haltRequest (r : RobotNo) : SameTable s (haltRequest s r).state := by
  refine withReachable r ?_
  split
  · exact of_judged ((Judged.stopMember _ _).trans (Judged.offerHalt _))
  · exact of_judged (Judged.offerHalt _)

theorem commitRequest (a b c : Byte) : SameTable s (commitRequest s a b c).state := by
  have emptied : SameTable s { s with openWave := [], deferred := [] } := of_tables rfl rfl
  unfold Machine.commitRequest
  split
  · exact refl s
  · split
    · exact refl s
    · split
      · exact refl s
      · exact emptied.trans (Judged.commitCandidates _ _)

theorem abortRequest : SameTable s (abortRequest s).state := by
  have aborted (w : Wave) : SameTable s (Machine.abortRequest.aborted s w).state := by
    rw [aborted_state]
    exact of_judged (Judged.abortWave.trans Judged.doneTest)
  unfold Machine.abortRequest
  split
  · exact refl s
  · split
    · exact refl s
    · exact refl s
    all_goals exact aborted _

theorem takeRequest : SameTable s (takeRequest s).state := by
  unfold Machine.takeRequest
  split
  · exact refl s
  · exact of_tables rfl rfl

/-- Controller reset keeps the static fields and the members of the zones (R19, R62). -/
theorem controllerReset : SameTable s (controllerReset s) := by
  refine ⟨fun r => .inl (by rw [controllerReset_robot, afterControllerReset_static]), fun z => ?_⟩
  obtain ⟨u, -, hz⟩ := controllerReset_zone s z
  rw [hz]
  exact ⟨settled_memberA .., settled_memberB ..⟩

theorem lineResetRequest (mask : Byte) : SameTable s (lineResetRequest s mask).state := by
  have named (s : State) (l : LineNo) : SameTable s (resetNamed s mask l).1 ∧
      ∀ t, SameTable t s → SameTable t (resetNamed s mask l).1 := by
    unfold resetNamed
    split
    · have kept := OnLine.resetLine (l := l) (s := s)
      exact ⟨⟨fun r => .inl (kept.static r), kept.members⟩, fun t h =>
        ⟨fun r => by rw [kept.static r]; exact h.robots r, fun z =>
          ⟨(kept.members z).1.trans (h.members z).1, (kept.members z).2.trans (h.members z).2⟩⟩⟩
    · exact ⟨refl s, fun _ => id⟩
  unfold Machine.lineResetRequest
  exact (named _ 3).2 _ ((named _ 2).2 _ ((named _ 1).2 _ (named s 0).1))

end SameTable

/-- A law of the Robot Table is kept by every step when the two loads keep it. -/
theorem keptByParts_of_loads {P : State → Prop} (same : ∀ s t, SameTable s t → P s → P t)
    (robots : ∀ s first count records, records.length = count → first + count ≤ 480 → P s →
      P (loadRobots s first count records).state)
    (zones : ∀ s first count records, records.length = count → P s → P (loadZones s first count records).state)
    (reset : P State.reset) : KeptByParts P := by
  have judged : ∀ {s t}, Judged s t → P s → P t := fun h => same _ _ (.of_judged h)
  refine
    { apart := fun s t h => same s t (.of_tables h.robots h.zones), judgeEnd := fun s l k st en => judged (.judgeEnd l k st en),
      inFlight := fun s r => judged (.setDelivery r _), loseMembers := fun s l => judged (.loseMembers l),
      overrunExpired := fun s r => judged (.overrunExpired r), waveMark := fun s => judged .waveMark,
      perform := fun s q hs => ?_, controllerReset := fun s => same s _ .controllerReset, reset := reset }
  cases q with
  | move => exact same s _ (.moveRequest _ _ _ _) hs
  | retrace => exact same s _ (.retraceRequest _ _) hs
  | home => exact same s _ (.withMover _ _ fun _ _ => .placeRecord _) hs
  | cancel => exact same s _ (.cancelRequest _) hs
  | halt => exact same s _ (.haltRequest _) hs
  | refresh => exact same s _ (.withReachable _ (.of_judged (.offerRead _ _ _))) hs
  | report | status | reset => exact hs
  | load table first count records =>
    rcases serveLoad_cases s table first count records with h | ⟨xs, hx, hf, e⟩ | ⟨xs, hx, e⟩
    · exact same s _ (.of_tables h.robots h.zones) hs
    · exact (show P (serveLoad s table first count records).state by rw [e]; exact robots s _ _ xs hx hf hs)
    · exact (show P (serveLoad s table first count records).state by rw [e]; exact zones s _ _ xs hx hs)
  | read table first count =>
    exact (show P (serveRead s table first count).state by rw [Serves.serveRead_state]; exact hs)
  | flags => exact same s _ (.flagsRequest _ _ _ _) hs
  | commit => exact same s _ (.commitRequest _ _ _) hs
  | abort => exact same s _ .abortRequest hs
  | take => exact same s _ .takeRequest hs
  | mask => exact same s _ (.of_tables rfl rfl) hs
  | lineReset => exact same s _ (.lineResetRequest _) hs

/-! ### The tables after the loads -/

/-- `t` holds the tables of `s` after a LOAD of robot records that is not refused: each record of the run has passed its tests. -/
structure RunLoaded (s t : State) (first count : Nat) (records : List (List Byte)) : Prop where
  members : ∀ z, (t.zone z).memberA = (s.zone z).memberA ∧ (t.zone z).memberB = (s.zone z).memberB
  outside : ∀ r : RobotNo, ¬(first ≤ r.val ∧ r.val < first + count) → (t.robot r).static = (s.robot r).static
  inside : ∀ r : RobotNo, first ≤ r.val ∧ r.val < first + count → ∃ bs,
    (records.map rawRobot)[r.val - first]? = some (rawRobot bs) ∧
    robotRecordFault s first count ((records.map rawRobot).take (r.val - first)) r.val (rawRobot bs) = none ∧
    (t.robot r).static = (rawRobot bs).static

theorem loadRobots_runLoaded (s : State) {first count : Nat} {records : List (List Byte)} (hl : records.length = count)
    (hf : first + count ≤ 480) : (loadRobots s first count records).state = s ∨
      RunLoaded s (loadRobots s first count records).state first count records := by
  rcases loadRobots_state s first count records with h | ⟨passed, -, sel, h⟩
  · exact .inl h
  · refine .inr ?_
    rw [h]
    obtain ⟨outside, inside⟩ := applyRobots_run s hf
      (bs := (records.map rawRobot).map RawRobot.static) (by simpa using hl)
    have zone (z : ZoneId) : (applyRobots s ((robotsIn first count).zip
        ((records.map rawRobot).map RawRobot.static))).zone z = s.zone z := by rw [applyRobots_eq]; rfl
    generalize applyRobots s _ = u at outside inside zone
    have settled (r : RobotNo) : ((u.modLines fun e => e.dropStale fun r =>
        decide (first ≤ r.val) && decide (r.val < first + count)).settle sel).robot r = u.robot r := settleWith_robot ..
    refine ⟨fun z => ?_, fun r hr => by rw [settled, outside r hr], fun r hr => ?_⟩
    · rw [← zone z]
      exact (Judged.settle (s := u.modLines _) sel).members z
    · have here : r.val - first < records.length := by omega
      have raw : (records.map rawRobot)[r.val - first]? = some (rawRobot records[r.val - first]) := by
        rw [List.getElem?_map, List.getElem?_eq_getElem here]; rfl
      refine ⟨_, raw, ?_, ?_⟩
      · have := robotRangeFault_none passed raw
        rwa [List.nil_append, Nat.add_sub_cancel' hr.1] at this
      · rw [settled, inside r _ hr.1 hr.2 (by rw [List.getElem?_map, raw]; rfl), applyRobot_robot, if_pos rfl]

/-- Robots and zone members after a LOAD of zone records that is not refused: each entry of the run has passed R58. -/
theorem loadZones_members (s : State) {first count : Nat} {records : List (List Byte)} :
    (loadZones s first count records).state = s ∨
      (∀ r, (loadZones s first count records).state.robot r = s.robot r) ∧
      ∀ z : ZoneId,
        let e := (loadZones s first count records).state.zone z
        e.memberA = (s.zone z).memberA ∧ e.memberB = (s.zone z).memberB ∨
          orphanLink s z.val e.memberA e.memberB = false := by
  rcases loadZones_state s first count records with h | ⟨ms, sel, passed, h⟩
  · exact .inl h
  · refine .inr ?_
    rw [h]
    refine ⟨fun r => settleWith_robot .., fun z => ?_⟩
    obtain ⟨a, b⟩ := (Judged.settle (s := { s with zones := mapTable (withMembers s first ms) s.zones }) sel).members z
    dsimp only
    rw [a, b]
    have entry : State.zone { s with zones := mapTable (withMembers s first ms) s.zones } z =
        withMembers s first ms z.val (s.zone z) := mapTable_getElem_fin _ s.zones z
    rw [entry]
    rcases withMembers_cases s first ms z.val (s.zone z) with e | ⟨h1, m, hm, e⟩
    · rw [e]; exact .inl ⟨rfl, rfl⟩
    · rw [e]
      obtain ⟨x, -, hx⟩ := zoneRange_ok passed hm
      rw [Nat.add_sub_cancel' h1] at hx
      exact .inr (zoneMembers_some hx)

/-! ### The three laws -/

/-- After power-on reset every record is absent (R18). -/
theorem reset_robot (r : RobotNo) : State.reset.robot r = Robot.reset := by simp [State.robot, State.reset]

/-- No law of the ranges reads the two flags. -/
theorem staticOk_flags (b : RobotStatic) (enable priority : Bool) :
    StaticOk { b with enable := enable, priority := priority } ↔ StaticOk b := Iff.rfl

namespace RunLoaded

variable {s t : State} {first count : Nat} {records : List (List Byte)}

theorem robotsOk (h : RunLoaded s t first count records) (hs : RobotsOk s) : RobotsOk t := by
  intro r
  unfold RobotOk
  by_cases hr : first ≤ r.val ∧ r.val < first + count
  · obtain ⟨bs, -, passed, e⟩ := h.inside r hr
    rw [e, static_present]
    refine ⟨fun k => ?_, staticOk_of_tests passed⟩
    rw [RawRobot.static, if_neg (by rw [k]; decide)]
  · rw [h.outside r hr]; exact hs r

/-- The address of a present record of the run, and the DUPLICATE test that it has passed. -/
theorem address (h : RunLoaded s t first count records) {r : RobotNo} (hr : first ≤ r.val ∧ r.val < first + count)
    (hp : (t.robot r).static.present = true) : ∃ x, (records.map rawRobot)[r.val - first]? = some x ∧ x.present = true ∧
      duplicateAddr s first count ((records.map rawRobot).take (r.val - first)) x = false ∧
      (t.robot r).static.line.val = x.line.toNat ∧ (t.robot r).static.drop = x.drop := by
  obtain ⟨bs, hx, passed, e⟩ := h.inside r hr
  rw [e, static_present] at hp
  obtain ⟨addr, dup, -⟩ := robotRecordFault_none passed hp
  obtain ⟨line, drop⟩ := static_address hp addr
  exact ⟨_, hx, hp, dup, by rw [e, line], by rw [e, drop]⟩

/-- Of two present records at one address, the one of the lower number does not stand in the run before the other. -/
theorem not_before (h : RunLoaded s t first count records) {r q : RobotNo}
    (ir : first ≤ r.val ∧ r.val < first + count) (iq : first ≤ q.val ∧ q.val < first + count)
    (hr : (t.robot r).static.present = true) (hq : (t.robot q).static.present = true)
    (hline : (t.robot r).static.line = (t.robot q).static.line)
    (hdrop : (t.robot r).static.drop = (t.robot q).static.drop) : r.val ≤ q.val := by
  by_contra lt
  obtain ⟨x, -, -, dup, xl, xd⟩ := h.address ir hr
  obtain ⟨y, hy, yp, -, yl, yd⟩ := h.address iq hq
  have before : y ∈ (records.map rawRobot).take (r.val - first) := by
    obtain ⟨hlt, rfl⟩ := List.getElem?_eq_some_iff.1 hy
    exact List.mem_take_iff_getElem.2 ⟨_, by omega, rfl⟩
  have clash := duplicateAddr_before dup before
  have line : y.line = x.line := BitVec.eq_of_toNat_eq (by rw [← xl, ← yl, hline])
  have drop : y.drop = x.drop := by rw [← xd, ← yd, hdrop]
  simp [RawRobot.sameAddress, yp, line, drop] at clash

/-- A present record of the run does not share its address with a held one outside the run. -/
theorem not_held (h : RunLoaded s t first count records) {r q : RobotNo}
    (ir : first ≤ r.val ∧ r.val < first + count) (oq : ¬(first ≤ q.val ∧ q.val < first + count))
    (hr : (t.robot r).static.present = true) (hq : (t.robot q).static.present = true)
    (hline : (t.robot r).static.line = (t.robot q).static.line) :
    (t.robot r).static.drop ≠ (t.robot q).static.drop := by
  intro hdrop
  obtain ⟨x, -, -, dup, xl, xd⟩ := h.address ir hr
  have clash := duplicateAddr_held dup oq
  rw [h.outside q oq] at hq hline hdrop
  simp [RawRobot.heldAddress, hq, ← xl, ← xd, hline, hdrop] at clash

theorem addressesOk (h : RunLoaded s t first count records) (hs : AddressesOk s) : AddressesOk t := by
  intro r q hr hq hline hdrop
  by_cases ir : first ≤ r.val ∧ r.val < first + count <;> by_cases iq : first ≤ q.val ∧ q.val < first + count
  · exact Fin.ext (Nat.le_antisymm (h.not_before ir iq hr hq hline hdrop)
      (h.not_before iq ir hq hr hline.symm hdrop.symm))
  · exact absurd hdrop (h.not_held ir iq hr hq hline)
  · exact absurd hdrop.symm (h.not_held iq ir hq hr hline.symm)
  · rw [h.outside r ir] at hr hline hdrop
    rw [h.outside q iq] at hq hline hdrop
    exact hs r q hr hq hline hdrop

theorem linksOk (h : RunLoaded s t first count records) (hs : LinksOk s) : LinksOk t := by
  intro r hp
  have named (z : ZoneId) : (t.zone z).names r = (s.zone z).names r := by simp [Zone.names, h.members z]
  simp only [named]
  by_cases hr : first ≤ r.val ∧ r.val < first + count
  · obtain ⟨bs, -, passed, e⟩ := h.inside r hr
    rw [e, static_present] at hp
    obtain ⟨-, -, -, -, link, -⟩ := robotRecordFault_none passed hp
    simp only [RawRobot.badLink, Bool.or_eq_false_iff, List.any_eq_false, Bool.not_eq_true] at link
    obtain ⟨⟨-, good⟩, once⟩ := link
    have links : (rawRobot bs).static.links = (rawRobot bs).links.filterMap linkOf := by
      rw [RawRobot.static, if_pos hp]
    rw [e, links]
    refine ⟨fun k hk => ?_, List.Nodup.of_map Fin.val ?_⟩
    · obtain ⟨y, hy, hl⟩ := List.mem_filterMap.1 hk
      obtain ⟨-, -, -, z, -, hz, names⟩ := badLinkFor_false (good y hy)
      obtain rfl := Option.some.inj (hl.symm.trans hz)
      exact names r rfl
    · have zones := ((repeatsZone_iff _).1 once).map (f := BitVec.toNat) fun a b e => BitVec.eq_of_toNat_eq e
      rw [List.map_map] at zones ⊢
      exact filterMap_linkOf good ▸ zones
  · rw [h.outside r hr] at hp ⊢; exact hs r hp

end RunLoaded

theorem robotsOk_kept : KeptByParts RobotsOk := by
  refine keptByParts_of_loads (fun s t h hs r => ?_) (fun s first count records hl hf hs => ?_)
    (fun s first count records _ hs r => ?_) (fun r => ?_)
  · unfold RobotOk
    rcases h.robots r with e | ⟨present, enable, priority, e⟩
    · rw [e]; exact hs r
    · rw [e, staticOk_flags]
      exact ⟨fun k => absurd (present.symm.trans k) (by decide), fun _ => (hs r).2 present⟩
  · rcases loadRobots_runLoaded s hl hf with e | h
    · rw [e]; exact hs
    · exact h.robotsOk hs
  · rcases loadZones_members s (first := first) (count := count) (records := records) with e | ⟨robots, -⟩
    · rw [e]; exact hs r
    · unfold RobotOk; rw [robots r]; exact hs r
  · rw [reset_robot]
    exact ⟨fun _ => rfl, fun k => absurd k (by decide)⟩

theorem addressesOk_kept : KeptByParts AddressesOk := by
  refine keptByParts_of_loads (fun s t h hs r q => ?_) (fun s first count records hl hf hs => ?_)
    (fun s first count records _ hs r q => ?_) (fun r q hr => ?_)
  · have address (r : RobotNo) : (t.robot r).static.present = (s.robot r).static.present ∧
        (t.robot r).static.line = (s.robot r).static.line ∧ (t.robot r).static.drop = (s.robot r).static.drop := by
      rcases h.robots r with e | ⟨-, _, _, e⟩ <;> rw [e] <;> exact ⟨rfl, rfl, rfl⟩
    simp only [address]
    exact hs r q
  · rcases loadRobots_runLoaded s hl hf with e | h
    · rw [e]; exact hs
    · exact h.addressesOk hs
  · rcases loadZones_members s (first := first) (count := count) (records := records) with e | ⟨robots, -⟩
    · rw [e]; exact hs r q
    · rw [robots r, robots q]; exact hs r q
  · rw [reset_robot] at hr
    exact absurd hr (by decide)

theorem linksOk_kept : KeptByParts LinksOk := by
  refine keptByParts_of_loads (fun s t h hs r => ?_) (fun s first count records hl hf hs => ?_)
    (fun s first count records _ hs r => ?_) (fun r hr => ?_)
  · have named (z : ZoneId) : (t.zone z).names r = (s.zone z).names r := by simp [Zone.names, h.members z]
    have static : (t.robot r).static.present = (s.robot r).static.present ∧
        (t.robot r).static.links = (s.robot r).static.links := by
      rcases h.robots r with e | ⟨-, _, _, e⟩ <;> rw [e] <;> exact ⟨rfl, rfl⟩
    simp only [named, static]
    exact hs r
  · rcases loadRobots_runLoaded s hl hf with e | h
    · rw [e]; exact hs
    · exact h.linksOk hs
  · rcases loadZones_members s (first := first) (count := count) (records := records) with e | ⟨robots, zones⟩
    · rw [e]; exact hs r
    · rw [robots r]
      intro hp
      refine ⟨fun k hk => ?_, (hs r hp).2⟩
      rcases zones k.zone with ⟨a, b⟩ | linked
      · have := (hs r hp).1 k hk
        rwa [Zone.names, ← a, ← b] at this
      · simpa [Zone.names] using orphanLink_false linked hp hk rfl
  · rw [reset_robot] at hr
    exact absurd hr (by decide)

/-- Settles O7: only the loads of robot and zone records write what these laws read, and they test it first. -/
theorem stepsKeepTheRobotTable : Obligations.StepsKeepTheRobotTable :=
  fun _ _ h => ⟨robotsOk_kept.step h, addressesOk_kept.step h, linksOk_kept.step h⟩

end Sys2Proof.Machine
end

section
/-!
O8: the laws of moves and members. They read the slot states, the two lists of moves and the wave record; one rule for each operation
that changes one of them.
-/

namespace Sys2Proof.Machine

/-- The laws of moves and members together. -/
structure MoveLaws (s : State) : Prop where
  moves : MovesOk s
  presence : PresenceOk s
  members : MembersOk s

theorem undecided_eq_zero {w : Wave} : w.undecided = 0 ↔ ∀ m ∈ w.members, m.undecided = false := by
  simp [Wave.undecided, Wave.undecidedMembers, List.filter_eq_nil_iff]

/-- A member as a change of one robot's undecided member leaves it. -/
theorem changed_robot {f : Member → Member} (hf : ∀ m, (f m).robot = m.robot) (r : RobotNo) (l : List Member) :
    (l.map fun m => if m.robot = r ∧ m.undecided = true then f m else m).map Member.robot = l.map Member.robot := by
  rw [List.map_map]
  exact List.map_congr_left fun m _ => by
    simp only [Function.comp_apply]
    split
    · exact hf m
    · rfl

namespace MoveLaws

variable {s t : State} {r : RobotNo}

/-- The laws read the slot states, the present fields, the lists and the wave alone. -/
theorem same (h : MoveLaws s) (slot : ∀ r, (t.robot r).slot = (s.robot r).slot)
    (present : ∀ r, (t.robot r).static.present = (s.robot r).static.present) (o : t.openWave = s.openWave)
    (d : t.deferred = s.deferred) (w : t.wave = s.wave) : MoveLaws t where
  moves := by
    obtain ⟨moves, members⟩ := h.moves
    exact ⟨by rw [o, d]; exact moves, by rw [State.members, w]; exact members⟩
  presence r := by rw [slot, present]; exact h.presence r
  members := by
    obtain ⟨members, done⟩ := h.members
    exact ⟨fun r => by rw [slot, member?_congr w]; exact members r, by rw [w]; exact done⟩

theorem of_records (h : MoveLaws s) (k : SameRecords s t) : MoveLaws t :=
  h.same (fun r => by rw [robot_congr k.robots]) (fun r => by rw [robot_congr k.robots]) k.openWave k.deferred k.wave

theorem ite {p : Prop} [Decidable p] {a b : State} (ha : MoveLaws a) (hb : MoveLaws b) : MoveLaws (if p then a else b) := by
  split <;> assumption

/-- A robot in a wave state is present. -/
theorem present_of_inWave {x : SlotState} (h : x.inWave = true) : x ≠ .absent := by
  intro e; rw [e] at h; exact absurd h (by decide)

theorem inWave_of_member (h : MoveLaws s) {m : Member} (hm : s.member? r = some m) : (s.robot r).slot.inWave = true :=
  (h.members.1 r).2 (by rw [hm]; rfl)

theorem inWave_of_undecided (h : MoveLaws s) {m : Member} (hm : m ∈ s.undecidedMembers) :
    (s.robot m.robot).slot.inWave = true := (h.members.1 m.robot).2 (member?_of_undecided hm)

/-- Judging makes no present robot absent. -/
theorem stays_present (h : MoveLaws s) (k : MoveLaws t) (j : Judged s t) (hr : (s.robot r).slot ≠ .absent) :
    (t.robot r).slot ≠ .absent := by
  rw [Ne, k.presence r, j.static r, ← h.presence r]; exact hr

/-! ### Changes apart from the slot states and the wave -/

theorem modLine (h : MoveLaws s) (l : LineNo) (f : Line → Line) : MoveLaws (s.modLine l f) :=
  h.of_records ⟨rfl, rfl, rfl, rfl, rfl, rfl⟩

theorem offerClear (h : MoveLaws s) (r : RobotNo) : MoveLaws (s.offerClear r) := h.modLine _ _
theorem offerHalt (h : MoveLaws s) (r : RobotNo) : MoveLaws (s.offerHalt r) := h.modLine _ _
theorem offerRead (h : MoveLaws s) (r : RobotNo) (a b : Bool) : MoveLaws (s.offerRead r a b) := h.modLine _ _
theorem leaveLists (h : MoveLaws s) (r : RobotNo) : MoveLaws (s.leaveLists r) := h.modLine _ _
theorem nextPoll (h : MoveLaws s) (l : LineNo) (r : RobotNo) (n : Nat) : MoveLaws (s.nextPoll l r n) := h.modLine _ _
theorem joinCycle (h : MoveLaws s) (l : LineNo) (r : RobotNo) (n : Nat) : MoveLaws (s.joinCycle l r n) := h.modLine _ _

theorem raise (h : MoveLaws s) (c : EventClass) (d : Half) : MoveLaws (s.raise c d) :=
  h.of_records ⟨rfl, rfl, rfl, rfl, rfl, rfl⟩

theorem settleWith (h : MoveLaws s) (ms : List Member) (sel : Nat → Zone → Bool) : MoveLaws (s.settleWith ms sel) :=
  h.same (fun r => by rw [settleWith_robot]) (fun r => by rw [settleWith_robot]) (settleWith_openWave ..)
    (settleWith_deferred ..) (settleWith_wave ..)

theorem modRobot (h : MoveLaws s) (r : RobotNo) {f : Robot → Robot}
    (hf : ∀ b, (f b).slot = b.slot ∧ (f b).static = b.static := by exact fun _ => ⟨rfl, rfl⟩) :
    MoveLaws (s.modRobot r f) :=
  h.same (fun q => by rw [robot_modRobot]; split; exacts [(hf _).1, rfl])
    (fun q => by rw [robot_modRobot]; split; exacts [congrArg _ (hf _).2, rfl]) rfl rfl rfl

/-! ### Changes of the wave record -/

/-- A change of a member that keeps its robot and leaves it undecided. -/
theorem modMember (h : MoveLaws s) (r : RobotNo) {f : Member → Member}
    (hf : ∀ m, (f m).robot = m.robot ∧ (f m).outcome = m.outcome := by exact fun _ => ⟨rfl, rfl⟩) :
    MoveLaws (s.modMember r f) where
  moves := by
    obtain ⟨moves, members⟩ := h.moves
    refine ⟨by simpa using moves, ?_⟩
    rw [members_modMember, changed_robot fun m => (hf m).1]
    exact members
  presence q := by rw [robot_modMember]; exact h.presence q
  members := by
    refine ⟨fun q => ?_, fun w hw done => undecided_eq_zero.2 fun m hm => ?_⟩
    · rw [robot_modMember, h.members.1 q]
      by_cases hq : q = r
      · rw [hq, member?_modMember_same s r hf, Option.isSome_map]
      · rw [member?_modMember_ne s r (fun m => (hf m).1) hq]
    · unfold State.modMember at hw
      split at hw
      · rename_i none; rw [none] at hw; cases hw
      · rename_i v hv
        obtain rfl := Option.some.inj hw
        obtain ⟨x, hx, rfl⟩ := List.mem_map.1 hm
        have decided := undecided_eq_zero.1 (h.members.2 v hv done) x hx
        simp [decided]

/-- A change of the wave record that keeps the members, and ends no wave with a member undecided. -/
theorem modWave (h : MoveLaws s) {f : Wave → Wave}
    (done : ∀ w, s.wave = some w → (f w).state = .done → w.undecided = 0)
    (hf : ∀ w, (f w).members = w.members := by exact fun _ => rfl) : MoveLaws (s.modWave f) := by
  unfold State.modWave
  split
  · exact h
  · rename_i w hw
    have members : State.members { s with wave := some (f w) } = s.members := by rw [members_of_wave hw]; exact hf w
    refine ⟨⟨h.moves.1, by rw [members]; exact h.moves.2⟩, h.presence, ⟨fun r => ?_, fun v hv hd => ?_⟩⟩
    · rw [State.member?, State.undecidedMembers, members]; exact h.members.1 r
    · obtain rfl := Option.some.inj hv
      rw [Wave.undecided, Wave.undecidedMembers, hf]
      exact done w hw hd

/-- A member is decided: its robot leaves the wave states. -/
theorem decided (h : MoveLaws s) {f : Member → Member} (hf : ∀ m, (f m).robot = m.robot ∧ (f m).outcome ≠ .none)
    (hr : (s.robot r).slot ≠ .absent) (w : t.wave = (s.modMember r f).wave)
    (self : (t.robot r).slot = .idle ∨ (t.robot r).slot = .uncertain)
    (others : ∀ q, q ≠ r → (t.robot q).slot = (s.robot q).slot)
    (present : ∀ q, (t.robot q).static.present = (s.robot q).static.present) (o : t.openWave = s.openWave)
    (d : t.deferred = s.deferred) : MoveLaws t where
  moves := by
    obtain ⟨moves, members⟩ := h.moves
    refine ⟨by rw [o, d]; exact moves, ?_⟩
    rw [State.members, w]
    show ((s.modMember r f).members.map _).Nodup
    rw [members_modMember, changed_robot fun m => (hf m).1]
    exact members
  presence q := by
    rw [present, ← h.presence q]
    by_cases hq : q = r
    · subst hq
      rcases self with e | e <;> rw [e] <;> exact iff_of_false nofun hr
    · rw [others q hq]
  members := by
    refine ⟨fun q => ?_, fun v hv done => undecided_eq_zero.2 fun m hm => ?_⟩
    · rw [member?_congr w]
      by_cases hq : q = r
      · subst hq
        rw [member?_modMember_decided s q fun m => (hf m).2]
        rcases self with e | e <;> rw [e] <;> decide
      · rw [member?_modMember_ne s r (fun m => (hf m).1) hq, others q hq]
        exact h.members.1 q
    · rw [w] at hv
      unfold State.modMember at hv
      split at hv
      · rename_i none; rw [none] at hv; cases hv
      · rename_i x hx
        obtain rfl := Option.some.inj hv
        obtain ⟨y, hy, rfl⟩ := List.mem_map.1 hm
        have decided := undecided_eq_zero.1 (h.members.2 x hx done) y hy
        simp [decided]

/-! ### Slot states -/

theorem setSlot (h : MoveLaws s) {x : SlotState} (hr : (s.robot r).slot.inWave = true)
    (hx : x.inWave = true := by rfl) : MoveLaws (s.setSlot r x) where
  moves := h.moves
  presence q := by
    rw [State.setSlot, robot_modRobot]
    split
    · rename_i hq
      subst hq
      have present := present_of_inWave hr
      rw [Ne, h.presence] at present
      exact iff_of_false (fun k => present_of_inWave hx k) present
    · exact h.presence q
  members := by
    refine ⟨fun q => ?_, h.members.2⟩
    show _ ↔ (s.member? q).isSome = true
    rw [← h.members.1 q, State.setSlot, robot_modRobot]
    split
    · rename_i hq; subst hq; simp [hx, hr]
    · rfl

/-- Decisions that leave the robot's position unknown (R54). -/
theorem concludeUncertain (h : MoveLaws s) (hr : (s.robot r).slot ≠ .absent) {o : Ending} (ho : o ≠ .none)
    (why : Reason) : MoveLaws (s.concludeUncertain r o why) := by
  refine h.decided (f := fun m => m.decided o why) (r := r) (fun m => ⟨rfl, ho⟩) hr (becomeUncertain_wave _ r) (.inr ?_)
    (fun q hq => ?_) (fun q => ?_) (by simp [State.concludeUncertain]) (by simp [State.concludeUncertain])
  · rw [State.concludeUncertain, becomeUncertain_robot, if_pos rfl]
  · rw [State.concludeUncertain, becomeUncertain_robot, if_neg hq.symm, conclude_robot, if_neg hq.symm]
  · rw [(Judged.concludeUncertain r o why).static]

/-- Decisions that return the robot to its rest state (R9, R10). -/
theorem concludeAtRest (h : MoveLaws s) (hr : (s.robot r).slot ≠ .absent) {o : Ending} (ho : o ≠ .none)
    (why : Reason) : MoveLaws (s.concludeAtRest r o why) := by
  unfold State.concludeAtRest
  dsimp only
  split
  · refine h.decided (f := fun m => m.decided o why) (r := r) (fun m => ⟨rfl, ho⟩) hr (settleNaming_wave _ r) (.inl ?_)
      (fun q hq => ?_) (fun q => ?_) ?_ ?_
    · simp [State.setSlot]
    · simp [State.setSlot, hq.symm]
    · rw [(Judged.settleNaming r).static, (Judged.setSlot r _).static, (Judged.conclude r o why).static]
    · simp [State.setSlot]
    · simp [State.setSlot]
  · exact h.concludeUncertain hr ho why

/-- A confirmed arrival (R98). -/
theorem arrive (h : MoveLaws s) (m : Member) (hr : (s.robot m.robot).slot ≠ .absent) : MoveLaws (s.arrive m) := by
  refine h.decided (f := fun q => q.decided .arrived .none) (r := m.robot) (fun q => ⟨rfl, nofun⟩) hr ?_ (.inl ?_)
    (fun q hq => ?_) (fun q => ?_) ?_ ?_
  · exact (settleNaming_wave _ _).trans ((conclude_wave ..).trans (modMember_wave_congr (State.modRobot_wave ..) _ _))
  · simp [State.arrive]
  · simp [State.arrive, hq.symm]
  · rw [(Judged.arrive m).static]
  · simp [State.arrive]
  · simp [State.arrive]

/-- An IDLE robot that becomes UNCERTAIN (R112). -/
theorem becomeUncertain (h : MoveLaws s) (hr : (s.robot r).slot = .idle) : MoveLaws (s.becomeUncertain r) where
  moves := by
    have members : (s.becomeUncertain r).members = s.members := by simp [State.members]
    exact ⟨by simpa using h.moves.1, by rw [members]; exact h.moves.2⟩
  presence q := by
    have present := h.presence q
    rw [becomeUncertain_robot]
    split
    · rename_i hq
      subst hq
      rw [hr] at present
      simpa using present
    · exact present
  members := by
    refine ⟨fun q => ?_, by simpa using h.members.2⟩
    rw [member?_congr (becomeUncertain_wave s r), ← h.members.1 q, becomeUncertain_robot]
    split
    · rename_i hq; subst hq; rw [hr]; exact Iff.rfl
    · rfl

/-! ### Folds -/

/-- A fold keeps the laws when each of its operations does, under a condition that the others keep. -/
theorem foldl (h : MoveLaws s) {α : Type} {f : State → α → State} {Q : State → α → Prop}
    (keeps : ∀ s a, MoveLaws s → Q s a → MoveLaws (f s a))
    (stays : ∀ s a b, MoveLaws s → Q s a → Q s b → Q (f s a) b) (xs : List α) (hx : ∀ a ∈ xs, Q s a) :
    MoveLaws (xs.foldl f s) := by
  induction xs generalizing s with
  | nil => exact h
  | cons x xs ih =>
    have now := hx x List.mem_cons_self
    exact ih (keeps s x h now) fun a ha => stays s x a h now (hx a (List.mem_cons_of_mem _ ha))

/-- A fold of operations that judge present robots. -/
theorem foldlPresent (h : MoveLaws s) {f : State → RobotNo → State} (judged : ∀ s r, Judged s (f s r))
    (keeps : ∀ s r, MoveLaws s → (s.robot r).slot ≠ .absent → MoveLaws (f s r)) (rs : List RobotNo)
    (hr : ∀ r ∈ rs, (s.robot r).slot ≠ .absent) : MoveLaws (rs.foldl f s) :=
  h.foldl keeps (fun _ a _ k ka kb => k.stays_present (keeps _ a k ka) (judged _ a) kb) rs hr

theorem memberRobots_inWave (h : MoveLaws s) (p : Member → Bool) :
    ∀ r ∈ s.memberRobots p, (s.robot r).slot.inWave = true := by
  intro r hr
  obtain ⟨m, hm, rfl⟩ := List.mem_map.1 hr
  exact h.inWave_of_undecided (List.mem_filter.1 hm).1

/-! ### The judging rules -/

theorem stopMember (h : MoveLaws s) (ph : StopPhase) (hr : (s.robot r).slot.inWave = true) :
    MoveLaws (s.stopMember r ph) :=
  ((h.setSlot hr).modLine _ _).modMember r

/-- A member that is stopped keeps every robot in its wave states. -/
theorem stopMember_inWave (ph : StopPhase) {q : RobotNo} (hq : (s.robot q).slot.inWave = true) :
    ((s.stopMember r ph).robot q).slot.inWave = true := by
  have slot : (s.stopMember r ph).robot q = (s.setSlot r .stopping).robot q := robot_modMember ..
  rw [slot, State.setSlot, robot_modRobot]
  split
  · rfl
  · exact hq

theorem missListed (h : MoveLaws s) (hr : (s.robot r).slot ≠ .absent) : MoveLaws (s.missListed r) := by
  have closed : MoveLaws ((s.removeDeliver r).setDelivery r .closed) := (h.modLine _ _).modMember r
  refine closed.concludeAtRest ?_ (by decide) _
  rw [State.setDelivery, robot_modMember]
  exact hr

theorem loseMember (h : MoveLaws s) (hr : (s.robot r).slot ≠ .absent) : MoveLaws (s.loseMember r) := by
  refine (h.modMember r fun m => ?_).concludeUncertain (by rwa [robot_modMember]) (by decide) _
  split <;> exact ⟨rfl, rfl⟩

theorem concludeLost (h : MoveLaws s) (hr : (s.robot r).slot ≠ .absent) (why : Reason) : MoveLaws (s.concludeLost r why) :=
  (h.concludeUncertain hr (by decide) why).raise _ _

theorem concludeStalled (h : MoveLaws s) (hr : (s.robot r).slot ≠ .absent) (why : Reason) :
    MoveLaws (s.concludeStalled r why) :=
  (h.concludeUncertain hr (by decide) why).raise _ _

variable {m : Member}

theorem removeAbortRead (h : MoveLaws s) (m : Member) : MoveLaws (s.removeAbortRead m) := ite h (h.modLine _ _)

theorem removeAbortRead_robot (s : State) (m : Member) (q : RobotNo) : (s.removeAbortRead m).robot q = s.robot q := by
  unfold State.removeAbortRead; split <;> rfl

theorem beginClear (h : MoveLaws s) (b : Bool) (hm : (s.robot m.robot).slot.inWave = true) : MoveLaws (s.beginClear m b) :=
  (((h.setSlot hm).modMember _).removeAbortRead m).offerClear _

theorem setFaultCode (h : MoveLaws s) (r : RobotNo) (f : Byte) : MoveLaws (s.setFaultCode r f) :=
  h.modRobot r

theorem setFaultCode_slot (s : State) (r q : RobotNo) (f : Byte) : ((s.setFaultCode r f).robot q).slot = (s.robot q).slot := by
  rw [State.setFaultCode, robot_modRobot]; split <;> rfl

theorem setDelivery (h : MoveLaws s) (r : RobotNo) (d : Delivery) : MoveLaws (s.setDelivery r d) :=
  h.modMember r

@[simp] theorem setDelivery_robot (s : State) (r q : RobotNo) (d : Delivery) : (s.setDelivery r d).robot q = s.robot q :=
  robot_modMember ..

theorem judgeDeliver (h : MoveLaws s) (hm : (s.robot m.robot).slot.inWave = true) (en : TxnEnd) :
    MoveLaws (judgeDeliver s m en) := by
  have present := present_of_inWave hm
  cases en with
  | accepted =>
    refine ite (h.beginClear _ hm) (ite ((h.setDelivery _ _).setSlot ?_) (h.setDelivery _ _))
    rwa [setDelivery_robot]
  | refused f =>
    refine (((h.setFaultCode _ f).removeAbortRead m).setDelivery _ _).concludeAtRest ?_ (by decide) _
    rwa [setDelivery_robot, removeAbortRead_robot, setFaultCode_slot]
  | failed b => exact h.beginClear _ hm
  | polled => exact h
  | statused => exact h

theorem judgeClear (h : MoveLaws s) (hm : (s.robot m.robot).slot.inWave = true) (en : TxnEnd) :
    MoveLaws (judgeClear s m en) := by
  have present : ((s.setDelivery m.robot .closed).robot m.robot).slot ≠ .absent := by
    rw [setDelivery_robot]; exact present_of_inWave hm
  cases en with
  | accepted => exact (h.setDelivery _ _).concludeAtRest present (by decide) _
  | refused f => exact ((h.setFaultCode _ f).modMember _).offerHalt _
  | failed b => exact (h.setDelivery _ _).concludeLost present _
  | polled => exact h
  | statused => exact h

theorem judgeReadBackClear (h : MoveLaws s) (hm : (s.robot m.robot).slot.inWave = true) (en : TxnEnd) :
    MoveLaws (judgeReadBackClear s m en) := by
  have present := present_of_inWave hm
  cases en with
  | accepted => exact h.concludeAtRest present (by decide) _
  | refused f => exact (h.setFaultCode _ f).concludeUncertain (by rwa [setFaultCode_slot]) (by decide) _
  | failed b => exact h.concludeLost present _
  | polled => exact h
  | statused => exact h

theorem judgeReadBack (h : MoveLaws s) (hm : (s.robot m.robot).slot.inWave = true) (round : Nat) (code : Byte)
    (posOk : Bool) (p : Pair) : MoveLaws (judgeReadBack s m round code posOk p) := by
  have present := present_of_inWave hm
  have found : MoveLaws (concludeFound s m p) := ite (h.concludeAtRest present (by decide) _)
    (ite (h.arrive m present) (h.concludeUncertain present (by decide) _))
  have atRest : MoveLaws (judgeAtRest s m p) := found.leaveLists _
  unfold Machine.judgeReadBack
  split
  · exact atRest
  · exact (h.modMember _).offerClear _
  · exact ite atRest (h.concludeStalled present _)
  · exact h.concludeStalled present _
  · exact h.concludeStalled present _
  · exact ite ((h.modMember _).offerHalt _) (h.concludeUncertain present (by decide) _)

theorem judgeRefresh (h : MoveLaws s) (code : Byte) (p : Pair) : MoveLaws (judgeRefresh s r code p) := by
  unfold Machine.judgeRefresh
  dsimp only
  split
  · rename_i drifted
    refine ((h.modRobot r).becomeUncertain ?_).raise _ _
    rw [robot_modRobot, if_pos rfl]
    exact drifted.1
  · exact h

/-- A READ that serves a read-back serves the robot's undecided member. -/
theorem readBack?_some {s : State} {r : RobotNo} {round : Nat} (h : s.readBack? r = some (m, round)) :
    s.member? r = some m ∧ m.stop.readRound? = some round := by
  unfold State.readBack? at h
  split at h
  · cases h
  · rename_i q hq
    split at h
    · cases h
    · rename_i n hn
      obtain ⟨rfl, rfl⟩ := Prod.mk.inj (Option.some.inj h)
      exact ⟨hq, hn⟩

theorem judgeRead (h : MoveLaws s) (refresh readBack : Bool) (en : TxnEnd) :
    MoveLaws (judgeRead s r refresh readBack en) := by
  have served {m : Member} {round : Nat} (hb : s.readBack? r = some (m, round)) :
      (s.robot m.robot).slot.inWave = true := by
    obtain ⟨hm, -⟩ := readBack?_some hb
    rw [(member?_some hm).2.2]
    exact h.inWave_of_member hm
  cases en with
  | statused code posOk fault p =>
    have stored : MoveLaws (s.storeStatus r fault p) := h.modRobot r
    have slot (q : RobotNo) : ((s.storeStatus r fault p).robot q).slot = (s.robot q).slot := by
      rw [State.storeStatus, robot_modRobot]; split <;> rfl
    unfold Machine.judgeRead
    dsimp only
    split
    · split
      · rename_i hb
        exact stored.judgeReadBack (by rw [slot]; exact served hb) _ _ _ _
      · exact ite (stored.judgeRefresh _ _) stored
    · exact ite (stored.judgeRefresh _ _) stored
  | failed b =>
    unfold Machine.judgeRead
    dsimp only
    split
    · split
      · rename_i hb
        exact h.concludeLost (present_of_inWave (served hb)) _
      · exact h
    · exact h
  | accepted => exact h
  | refused => exact h
  | polled => exact h

theorem judgePollAnswer (h : MoveLaws s) (hm : (s.robot m.robot).slot.inWave = true) (n : Half) (code : Byte) (posOk : Bool)
    (fault : Byte) (wave remaining : Half) : MoveLaws (judgePollAnswer s m n code posOk fault wave remaining) := by
  have present := present_of_inWave hm
  have stall (why : Reason) : MoveLaws (judgePollStall s m fault why) :=
    (h.setFaultCode _ _).concludeStalled (by rwa [setFaultCode_slot]) _
  have moving : MoveLaws (judgePollMoving s m remaining) := (h.modMember _).nextPoll _ _ _
  have armed : MoveLaws (judgePollArmed s m) := ((h.stopMember .none hm).modMember _).offerClear _
  unfold Machine.judgePollAnswer
  refine ite armed (ite (stall _) ?_)
  split
  · exact moving
  · exact moving
  · exact ite (h.arrive m present) (stall _)
  all_goals exact stall _

theorem judgePoll (h : MoveLaws s) (en : TxnEnd) : MoveLaws (judgePoll s r en) := by
  unfold Machine.judgePoll
  split
  · rename_i w m hw hm
    have self := (member?_some hm).2.2
    have inWave := h.inWave_of_member hm
    refine ite ?_ h
    split
    · exact h.judgePollAnswer (by rwa [self]) _ _ _ _ _ _
    · exact h.concludeLost (present_of_inWave inWave) _
    all_goals exact h
  · exact h

theorem startMember (h : MoveLaws s) (l : LineNo) (hm : (s.robot m.robot).slot.inWave = true) :
    MoveLaws (s.startMember l m) :=
  ((h.setSlot hm).modMember _).joinCycle _ _ _

theorem judgeGo (h : MoveLaws s) (l : LineNo) (g : GoFlag) : MoveLaws (judgeGo s l g) := by
  refine h.foldl (Q := fun s m => (s.robot m.robot).slot.inWave = true) (fun s m k hm => k.startMember l hm)
    (fun s a b _ _ hb => ?_) _ fun m hm => ?_
  · have slot : (s.startMember l a).robot b.robot = (s.setSlot a.robot .moving).robot b.robot := robot_modMember ..
    rw [slot, State.setSlot, robot_modRobot]
    split
    · rfl
    · exact hb
  · unfold State.armedMembers at hm
    split at hm
    · cases hm
    · rename_i w hw
      split at hm
      · refine h.inWave_of_undecided ?_
        rw [State.undecidedMembers, members_of_wave hw]
        exact (List.mem_filter.1 hm).1
      · cases hm

end MoveLaws

end Sys2Proof.Machine
end

section
/-!
O8, continued: the commit, the completion of a wave, its start and its abort, and the requests.
-/

namespace Sys2Proof.Machine

/-! ### The commit -/

/-- What a commit that has examined some of its candidates keeps: the robots in a wave state are those of the members admitted, all
of them undecided. -/
structure Examining (s : State) (run : CommitRun) : Prop where
  presence : PresenceOk s
  admitted : ∀ r, (s.robot r).slot.inWave = true ↔ ∃ m ∈ run.members, m.robot = r
  fresh : ∀ m ∈ run.members, m.outcome = .none

namespace Examining

variable {s t : State} {run : CommitRun}

theorem same (h : Examining s run) (slot : ∀ r, (t.robot r).slot = (s.robot r).slot)
    (static : ∀ r, (t.robot r).static = (s.robot r).static) (counts : CommitCounts) :
    Examining t { run with counts := counts } where
  presence r := by rw [slot, static]; exact h.presence r
  admitted r := by rw [slot]; exact h.admitted r
  fresh := h.fresh

theorem dropCandidate (h : Examining s run) (m : MoveRecord) (why : Reason) :
    Examining (dropCandidate s run m why).1 (dropCandidate s run m why).2 :=
  h.same (fun q => by simp only [Machine.dropCandidate, State.setLast, robot_modRobot]; split <;> rfl)
    (Judged.dropCandidate run m why).static _

theorem nullCandidate (h : Examining s run) (m : MoveRecord) :
    Examining (nullCandidate s run m).1 (nullCandidate s run m).2 := by
  refine h.same (fun q => ?_) (Judged.nullCandidate run m).static _
  unfold Machine.nullCandidate
  dsimp only
  split <;> simp only [State.setLast, robot_modRobot] <;> split <;> rfl

theorem deferCandidate (h : Examining s run) (c : Candidate) :
    Examining (deferCandidate s run c).1 (deferCandidate s run c).2 := by
  have raised : Examining (s.raise .deferDrop (halfOf c.record.robot.val)) run :=
    h.same (t := s.raise _ _) (fun _ => rfl) (fun _ => rfl) run.counts
  unfold Machine.deferCandidate
  dsimp only
  split
  · exact raised.dropCandidate _ _
  · split
    · exact raised.dropCandidate _ _
    · refine h.same (fun q => ?_) (fun q => ?_) _ <;>
        exact (congrArg _ (robot_modRobot { s with deferred := s.deferred ++ [⟨c.record, c.count + 1⟩] } _ q _)).trans
          (by split <;> rfl)

/-- The robot of an admitted candidate is ARMING, and no other slot state changes (R72). -/
theorem admitCandidate_slot (s : State) (run : CommitRun) (m : MoveRecord) (p : Plan) (q : RobotNo) :
    (((admitCandidate s run m p).1).robot q).slot = if m.robot = q then .arming else (s.robot q).slot := by
  unfold admitCandidate
  dsimp only
  have listed (t : State) (r : RobotNo) : (t.offerDeliver r).robot q = t.robot q := rfl
  have forgot (t : State) (r : RobotNo) : (t.forgetJoins r).robot q = t.robot q := rfl
  split
  · rw [settleWith_robot, forgot, listed, robot_modRobot, robot_congr (takeZones_robots s ..)]
    split <;> rfl
  · rw [listed, robot_modRobot, robot_congr (takeZones_robots s ..)]
    split <;> rfl

theorem admitCandidate (h : Examining s run) {m : MoveRecord} (hm : (s.robot m.robot).slot ≠ .absent) (p : Plan) :
    Examining (admitCandidate s run m p).1 (admitCandidate s run m p).2 where
  presence q := by
    rw [admitCandidate_slot, (Judged.admitCandidate run m p).static, ← h.presence q]
    split
    · rename_i hq
      subst hq
      exact iff_of_false nofun hm
    · rfl
  admitted q := by
    have members : ∃ x : Member, x.robot = m.robot ∧ (Machine.admitCandidate s run m p).2.members = run.members ++ [x] :=
      ⟨newMember s m p, rfl, rfl⟩
    obtain ⟨x, hx, members⟩ := members
    rw [admitCandidate_slot, members]
    split
    · rename_i hq
      exact iff_of_true rfl ⟨x, by simp, hx.trans hq⟩
    · rename_i hq
      rw [h.admitted q]
      simp only [List.mem_append, List.mem_singleton]
      constructor
      · rintro ⟨y, hy, e⟩; exact ⟨y, .inl hy, e⟩
      · rintro ⟨y, hy | rfl, e⟩
        · exact ⟨y, hy, e⟩
        · exact absurd (hx.symm.trans e) hq
  fresh := by
    intro x hx
    rcases List.mem_append.1 (show x ∈ run.members ++ [newMember s m p] from hx) with hx | hx
    · exact h.fresh x hx
    · rw [List.mem_singleton.1 hx]; rfl

/-- A candidate that is admitted is of a present robot (R70). -/
theorem present_of_admitted {m : MoveRecord} {p : Plan} (h : s.judgeCandidate m = .admitted p) :
    (s.robot m.robot).slot ≠ .absent := by
  intro e
  unfold State.judgeCandidate at h
  dsimp only at h
  rw [if_pos e] at h
  cases h

theorem examine {acc : State × CommitRun} (h : Examining acc.1 acc.2) (c : Candidate) :
    Examining (examine acc c).1 (examine acc c).2 := by
  unfold Machine.examine
  dsimp only
  split
  · exact h.dropCandidate _ _
  · exact h.nullCandidate _
  · exact h.deferCandidate _
  · rename_i p judged
    exact h.admitCandidate (present_of_admitted judged) p

theorem examineAll (cs : List Candidate) {acc : State × CommitRun} (h : Examining acc.1 acc.2) :
    Examining (cs.foldl Machine.examine acc).1 (cs.foldl Machine.examine acc).2 := by
  induction cs generalizing acc with
  | nil => exact h
  | cons c cs ih => exact ih (h.examine c)

end Examining

namespace MoveLaws

variable {s t : State} {r : RobotNo}

/-- With every member decided, no robot is in a wave state. -/
theorem idle_of_decided (h : MoveLaws s) (hd : ∀ m ∈ s.members, m.undecided = false) (r : RobotNo) :
    (s.robot r).slot.inWave = false := by
  rw [Bool.eq_false_iff, Ne, h.members.1 r, member?_isSome]
  rintro ⟨m, hm, hu, -⟩
  exact absurd (hu.symm.trans (hd m hm)) (by decide)

/-- A commit keeps the laws when its candidates are the moves of the deferred list, or of both lists, that it has emptied, and the
wave record holds no undecided member. -/
theorem commitCandidates (h : MoveLaws s) (hd : ∀ m ∈ s.members, m.undecided = false) {u : State} (cs : List Candidate)
    (o : CommitOrder) (empty : u.deferred = []) (robots : u.robots = s.robots) (wave : u.wave = s.wave)
    (moves : (u.openWave.map MoveRecord.robot ++ cs.map fun c => c.record.robot).Nodup) :
    MoveLaws (commitCandidates u cs o).1 := by
  have start : Examining u { members := [], counts := ⟨0, 0, 0, 0⟩ } :=
    { presence := fun r => by rw [robot_congr robots]; exact h.presence r
      admitted := fun r => by rw [robot_congr robots, h.idle_of_decided hd r]; simp
      fresh := by simp }
  obtain ⟨done, ds, ms, disposal⟩ := examined_commits cs (u, { members := [], counts := ⟨0, 0, 0, 0⟩ })
  have examined := start.examineAll cs (acc := (u, { members := [], counts := ⟨0, 0, 0, 0⟩ }))
  unfold Machine.commitCandidates
  dsimp only
  generalize cs.foldl examine (u, { members := [], counts := ⟨0, 0, 0, 0⟩ }) = b at done disposal examined
  obtain ⟨v, run⟩ := b
  have frame := done.frame
  dsimp only at frame
  have deferred : v.deferred = ds := by simpa [empty] using disposal.deferred
  have members : run.members = ms := by simpa using disposal.members
  have openWave : v.openWave = u.openWave := by rw [frame]
  have kept : v.wave = s.wave := by rw [frame]; exact wave
  have lists : (v.openWave.map MoveRecord.robot ++ v.deferred.map fun d => d.record.robot).Nodup := by
    rw [openWave, deferred]
    refine moves.sublist (List.Sublist.append_left ?_ _)
    have := disposal.fromList.map fun x => x.1.robot
    simpa [List.map_map, Function.comp_def] using this
  unfold createWave
  dsimp only
  split
  · rename_i none
    refine ⟨⟨lists, by rw [State.members, kept]; exact h.moves.2⟩, examined.presence, ⟨fun q => ?_, ?_⟩⟩
    · rw [examined.admitted q, none, member?_congr kept, member?_isSome]
      refine iff_of_false (by simp) ?_
      rintro ⟨m, hm, hu, -⟩
      exact absurd (hu.symm.trans (hd m hm)) (by decide)
    · rw [kept]; exact h.members.2
  · refine ⟨⟨lists, ?_⟩, examined.presence, ⟨fun q => ?_, ?_⟩⟩
    · show (run.members.map Member.robot).Nodup
      rw [members]
      exact (List.nodup_append.1 moves).2.1.sublist disposal.robots
    · show (v.robot q).slot.inWave = true ↔ _
      rw [examined.admitted q, member?_isSome]
      exact ⟨fun ⟨m, hm, e⟩ => ⟨m, hm, by simp [Member.undecided, examined.fresh m hm], e⟩,
        fun ⟨m, hm, _, e⟩ => ⟨m, hm, e⟩⟩
    · intro w hw done
      obtain rfl := Option.some.inj hw
      cases done

theorem chainCommit (h : MoveLaws s) (hd : ∀ m ∈ s.members, m.undecided = false) (w : Wave) :
    MoveLaws (chainCommit s w) := by
  have robots : ((chainCandidates s).map fun c => c.record.robot).Perm (s.deferred.map fun d => d.record.robot) := by
    have split := (List.filter_append_perm s.hasPriority (deferredCandidates s)).map fun c => c.record.robot
    refine split.trans ?_
    simp [deferredCandidates, Function.comp_def]
  have committed : MoveLaws (Machine.commitCandidates { s with deferred := [] } (chainCandidates s)
      ⟨.chain, w.chainLead, w.chainRemaining - 1, w.chainLead⟩).1 :=
    h.commitCandidates hd _ _ rfl rfl rfl ((robots.append_left _).nodup_iff.2 h.moves.1)
  unfold Machine.chainCommit
  dsimp only
  refine ite ((committed.modWave fun v hv done => ?_).raise _ _) committed
  exact committed.members.2 v hv done

theorem waveDone (h : MoveLaws s) {w : Wave} (hw : s.wave = some w) (hd : w.undecided = 0) : MoveLaws (waveDone s w) := by
  have done : MoveLaws ((s.modWave fun w => { w with state := .done }).raise .waveDone w.number) := by
    refine (h.modWave fun v hv _ => ?_).raise _ _
    rw [Option.some.inj (hv.symm.trans hw)]
    exact hd
  have wave : ((s.modWave fun w => { w with state := .done }).raise .waveDone w.number).wave =
      some { w with state := .done } := by
    show (s.modWave _).wave = _
    unfold State.modWave
    rw [hw]
  have decided : ∀ m ∈ ((s.modWave fun w => { w with state := .done }).raise .waveDone w.number).members,
      m.undecided = false := by
    rw [members_of_wave wave]
    exact undecided_eq_zero.1 hd
  unfold Machine.waveDone
  dsimp only
  refine ite done (ite (done.modWave fun v hv e => done.members.2 v hv e) (done.chainCommit decided w))

theorem doneTest (h : MoveLaws s) : MoveLaws (doneTest s) := by
  unfold Machine.doneTest
  split
  · exact h
  · rename_i w hw
    split
    · rename_i ended
      exact h.waveDone hw ended.2
    · exact h

theorem armTest (h : MoveLaws s) : MoveLaws (armTest s) := by
  unfold Machine.armTest
  split
  · exact h
  · exact ite (h.modWave fun _ _ e => by cases e) h

/-! ### The ends of transactions -/

theorem judgeEnd (h : MoveLaws s) (l : LineNo) (kind : TxnKind) (stale : Bool) (en : TxnEnd) :
    MoveLaws (judgeEnd s l kind stale en) := by
  have inWave {r : RobotNo} {m : Member} (hm : s.member? r = some m) : (s.robot m.robot).slot.inWave = true := by
    rw [(member?_some hm).2.2]; exact h.inWave_of_member hm
  cases kind with
  | deliver r =>
    refine ite h ?_
    unfold Machine.endDeliver
    split
    · exact h
    · rename_i m hm
      exact ite (h.judgeDeliver (inWave hm) en).armTest.doneTest h
  | read r a b => exact ite h (h.judgeRead _ _ _).doneTest
  | clear r =>
    refine ite h ?_
    unfold Machine.endClear
    split
    · exact h
    · rename_i m hm
      exact ite (h.judgeClear (inWave hm) en).armTest.doneTest
        (ite (h.judgeReadBackClear (inWave hm) en).armTest.doneTest h)
  | haltSingle r =>
    refine ite h ?_
    unfold Machine.endHalt
    split
    · exact h
    · rename_i m hm
      split
      · exact ((h.concludeUncertain (present_of_inWave (inWave hm)) (by decide) _).raise _ _).doneTest
      · exact (h.modMember _).offerRead _ _ _
      all_goals exact h
  | poll r => exact ite h (h.judgePoll _).doneTest
  | go g => exact h.judgeGo l g
  | haltAll => exact h

theorem loseMembers (h : MoveLaws s) (l : LineNo) : MoveLaws (loseMembers s l) := by
  refine (h.foldlPresent (fun s r => (Judged.modMember _ _).trans (Judged.concludeUncertain _ _ _))
    (fun s r k hr => k.loseMember hr) _ fun r hr => ?_).armTest.doneTest
  exact present_of_inWave (h.memberRobots_inWave _ r hr)

theorem overrunExpired (h : MoveLaws s) (r : RobotNo) : MoveLaws (overrunExpired s r) := by
  unfold Machine.overrunExpired
  split
  · exact h
  · rename_i m hm
    split
    · exact h
    · exact ite ((h.stopMember .overrunHalt (h.inWave_of_member hm)).offerHalt _) h

/-! ### The start mark and the abort -/

theorem startWave (h : MoveLaws s) (w : Wave) : MoveLaws (startWave s w) := by
  have runs : MoveLaws (s.modWave fun w => { w with state := .running }) := h.modWave fun _ _ e => by cases e
  have missed := runs.foldlPresent (fun _ r => Judged.missListed r) (fun s r k hr => k.missListed hr) (s.memberRobots Member.isListed)
    fun r hr => by rw [robot_modWave]; exact present_of_inWave (h.memberRobots_inWave _ r hr)
  have late := missed.foldl (Q := fun _ (_ : RobotNo) => True)
    (f := fun s r => s.modMember r fun m => { m with late := true }) (fun _ _ k _ => k.modMember _) (fun _ _ _ _ _ _ => trivial)
    (s.memberRobots Member.isInFlight) fun _ _ => trivial
  have goes := late.foldl (Q := fun _ (_ : LineNo) => True) (f := State.goOnLine w.number)
    (fun s l k _ => ite (k.modLine _ _) k) (fun _ _ _ _ _ _ => trivial) allLines fun _ _ => trivial
  exact (ite goes (goes.raise _ _)).doneTest

theorem waveMark (h : MoveLaws s) : MoveLaws (waveMark s) := by
  unfold Machine.waveMark
  split
  · exact h
  · exact ite (h.startWave _) h

theorem abortMember (h : MoveLaws s) (hr : (s.robot r).slot.inWave = true) : MoveLaws (s.abortMember r) :=
  (h.stopMember (.read 1) hr).offerRead _ _ _

theorem abortWave (h : MoveLaws s) : MoveLaws (abortWave s).1 := by
  have aborts : MoveLaws (s.modWave fun w => { w with state := .aborting, chainRemaining := 0 }) :=
    h.modWave fun _ _ e => by cases e
  have released : MoveLaws ((s.modWave fun w => { w with state := .aborting, chainRemaining := 0 }).modLines
      fun e => { e with goPending := none }) := aborts.of_records ⟨rfl, rfl, rfl, rfl, rfl, rfl⟩
  have missed := released.foldlPresent (fun _ r => Judged.missListed r) (fun s r k hr => k.missListed hr) (s.memberRobots Member.isListed)
    fun r hr => by
      show ((s.modWave _).robot r).slot ≠ .absent
      rw [robot_modWave]; exact present_of_inWave (h.memberRobots_inWave _ r hr)
  have halted := missed.foldl (Q := fun _ (_ : LineNo) => True) (f := State.haltLine)
    (fun s l k _ => ite (k.modLine _ _) k) (fun _ _ _ _ _ _ => trivial) allLines fun _ _ => trivial
  exact halted.foldl (Q := fun s r => (s.robot r).slot.inWave = true) (fun s r k hr => k.abortMember hr)
    (fun _ _ _ _ _ hb => stopMember_inWave _ hb) _ (halted.memberRobots_inWave _)

/-! ### The requests -/

theorem withdraw (h : MoveLaws s) (r : RobotNo) : MoveLaws (s.withdraw r) := by
  obtain ⟨o, d⟩ := withdraw_lists s r
  have wave : (s.withdraw r).wave = s.wave := by rw [withdraw_eq]
  have robot (q : RobotNo) : ((s.withdraw r).robot q).slot = (s.robot q).slot ∧
      ((s.withdraw r).robot q).static = (s.robot q).static := by
    rw [withdraw_robot]; split <;> exact ⟨rfl, rfl⟩
  refine ⟨⟨?_, by rw [State.members, wave]; exact h.moves.2⟩, fun q => ?_, ⟨fun q => ?_, by rw [wave]; exact h.members.2⟩⟩
  · rw [o, d]
    exact h.moves.1.sublist ((List.filter_sublist.map _).append (List.filter_sublist.map _))
  · rw [(robot q).1, (robot q).2]; exact h.presence q
  · rw [(robot q).1, member?_congr wave]; exact h.members.1 q

theorem placeRecord (h : MoveLaws s) (m : MoveRecord) : MoveLaws (s.placeRecord m) := by
  have withdrawn := h.withdraw m.robot
  obtain ⟨o, d⟩ := withdraw_lists s m.robot
  refine ⟨⟨?_, withdrawn.moves.2⟩, withdrawn.presence, withdrawn.members⟩
  show (((s.withdraw m.robot).openWave ++ [m]).map MoveRecord.robot ++ (s.withdraw m.robot).deferred.map _).Nodup
  have fresh : m.robot ∉ (s.withdraw m.robot).openWave.map MoveRecord.robot ++
      (s.withdraw m.robot).deferred.map fun d => d.record.robot := by
    rw [o, d]
    simp [List.mem_map, List.mem_filter]
  rw [List.map_append, List.append_assoc]
  refine (List.perm_middle (a := m.robot) (l₁ := (s.withdraw m.robot).openWave.map MoveRecord.robot)).nodup_iff.2 ?_
  exact List.nodup_cons.2 ⟨fresh, withdrawn.moves.1⟩

theorem withMover (h : MoveLaws s) (r : RobotNo) (p : Byte) {f : Robot → ProfileNo → Served}
    (hf : ∀ b q, MoveLaws (f b q).state) : MoveLaws (withMover s r p f).state := by
  unfold Machine.withMover
  split
  · exact h
  · split
    · exact h
    · split
      · exact h
      · exact hf _ _

theorem withReachable (h : MoveLaws s) (r : RobotNo) (k : MoveLaws t) : MoveLaws (withReachable s r t).state := by
  unfold Machine.withReachable
  split
  · exact h
  · split
    · exact h
    · exact k

theorem commitRequest (h : MoveLaws s) (a b c : Byte) : MoveLaws (commitRequest s a b c).state := by
  unfold Machine.commitRequest
  split
  · exact h
  · split
    · exact h
    · rename_i _ idle
      split
      · exact h
      · have decided : ∀ m ∈ s.members, m.undecided = false := by
          intro m hm
          unfold State.members at hm
          split at hm
          · cases hm
          · rename_i w hw
            have done : w.state = .done := by simpa [State.waveIdle, hw] using idle
            exact undecided_eq_zero.1 (h.members.2 w hw done) m hm
        have robots : ((requestCandidates s).map fun c => c.record.robot).Perm
            (s.openWave.map MoveRecord.robot ++ s.deferred.map fun d => d.record.robot) := by
          have late := List.filter_append_perm s.hasPriority (deferredCandidates s)
          have fresh := List.filter_append_perm s.hasPriority (openCandidates s)
          have all : (requestCandidates s).Perm (deferredCandidates s ++ openCandidates s) := by
            refine List.Perm.trans ?_ (late.append fresh)
            unfold requestCandidates
            simp only [List.append_assoc]
            refine List.Perm.append_left _ ?_
            rw [← List.append_assoc, ← List.append_assoc]
            exact List.perm_append_comm.append_right _
          refine (all.map _).trans ?_
          simp only [deferredCandidates, openCandidates, List.map_append, List.map_map, Function.comp_def]
          exact List.perm_append_comm
        exact h.commitCandidates (u := { s with openWave := [], deferred := [] }) decided _ _ rfl rfl rfl
          (robots.nodup_iff.2 h.moves.1)

theorem abortRequest (h : MoveLaws s) : MoveLaws (abortRequest s).state := by
  have aborted (w : Wave) : MoveLaws (Machine.abortRequest.aborted s w).state := by
    rw [aborted_state]
    exact h.abortWave.doneTest
  unfold Machine.abortRequest
  split
  · exact h
  · split
    · exact h
    · exact h
    all_goals exact aborted _

/-- A LOAD of robot records writes no robot in a wave state, and withdraws the moves of those it writes (R5, R6). -/
theorem loadRobots (h : MoveLaws s) {first count : Nat} {records : List (List Byte)} (hl : records.length = count)
    (hf : first + count ≤ 480) : MoveLaws (loadRobots s first count records).state := by
  rcases loadRobots_state s first count records with e | ⟨-, unlocked, sel, e⟩
  · rw [e]; exact h
  · rw [e]
    have idle (r : RobotNo) (hr : first ≤ r.val ∧ r.val < first + count) : (s.robot r).slot.inWave = false := by
      simpa using List.find?_eq_none.1 unlocked r (mem_robotsIn.2 hr)
    have hb : ((records.map rawRobot).map RawRobot.static).length = count := by simpa using hl
    obtain ⟨outside, inside⟩ := applyRobots_run s hf hb
    obtain ⟨o, d⟩ := applyRobots_lists s ((robotsIn first count).zip ((records.map rawRobot).map RawRobot.static))
    have wave : (applyRobots s ((robotsIn first count).zip ((records.map rawRobot).map RawRobot.static))).wave = s.wave := by
      rw [applyRobots_eq]
    generalize applyRobots s _ = u at outside inside o d wave
    have written (r : RobotNo) (hr : first ≤ r.val ∧ r.val < first + count) :
        ((u.robot r).slot = .absent ↔ (u.robot r).static.present = false) ∧ (u.robot r).slot.inWave = false := by
      have here : r.val - first < ((records.map rawRobot).map RawRobot.static).length := by omega
      rw [inside r _ hr.1 hr.2 (List.getElem?_eq_getElem here), applyRobot_robot, if_pos rfl]
      generalize ((records.map rawRobot).map RawRobot.static)[r.val - first] = b
      dsimp only
      split
      · rename_i present; simp [present, SlotState.inWave]
      · rename_i absent; simp [Bool.not_eq_true _ ▸ absent, SlotState.inWave]
    have loaded : MoveLaws u := by
      refine ⟨⟨?_, by rw [State.members, wave]; exact h.moves.2⟩, fun r => ?_, ⟨fun r => ?_, by rw [wave]; exact h.members.2⟩⟩
      · rw [o, d]
        exact h.moves.1.sublist ((List.filter_sublist.map _).append (List.filter_sublist.map _))
      · by_cases hr : first ≤ r.val ∧ r.val < first + count
        · exact (written r hr).1
        · rw [outside r hr]; exact h.presence r
      · rw [member?_congr wave, ← h.members.1 r]
        by_cases hr : first ≤ r.val ∧ r.val < first + count
        · rw [(written r hr).2, idle r hr]
        · rw [outside r hr]
    exact (loaded.of_records (t := u.modLines _) ⟨rfl, rfl, rfl, rfl, rfl, rfl⟩).settleWith _ _

theorem loadZones (h : MoveLaws s) (first count : Nat) (records : List (List Byte)) :
    MoveLaws (loadZones s first count records).state := by
  rcases loadZones_state s first count records with e | ⟨ms, sel, -, e⟩
  · rw [e]; exact h
  · rw [e]
    have named : MoveLaws { s with zones := mapTable (withMembers s first ms) s.zones } :=
      h.same (fun _ => rfl) (fun _ => rfl) rfl rfl rfl
    exact named.settleWith _ _

theorem flagsRequest (h : MoveLaws s) (first last : Half) (op mask : Byte) :
    MoveLaws (flagsRequest s first last op mask).state := by
  unfold Machine.flagsRequest
  split
  · exact h
  · split
    · exact h
    · have flagged (b : Robot) (op : FlagsOp) (mask : Byte) : (b.flagged op mask).slot = b.slot ∧
          (b.flagged op mask).static.present = b.static.present := by
        unfold Robot.flagged; split <;> exact ⟨rfl, rfl⟩
      refine h.same (fun r => ?_) (fun r => ?_) rfl rfl rfl <;> simp only [State.robot] <;> rw [mapTable_getElem_fin] <;> split
      · exact (flagged _ _ _).1
      · rfl
      · exact (flagged _ _ _).2
      · rfl

/-- LINE_RESET hands its failures over one after another (R135). -/
theorem lineResetRequest (h : MoveLaws s) (mask : Byte) : MoveLaws (lineResetRequest s mask).state := by
  have line (s : State) (l : LineNo) (h : MoveLaws s) : MoveLaws (resetNamed s mask l).1 := by
    unfold resetNamed
    split
    · exact (h.modLine l Line.afterReset).foldl (Q := fun _ (_ : TxnKind × Bool) => True)
        (f := fun s k => Machine.judgeEnd s l k.1 k.2 (.failed true))
        (fun _ _ k _ => k.judgeEnd _ _ _ _) (fun _ _ _ _ _ _ => trivial) _ fun _ _ => trivial
    · exact h
  exact line _ 3 (line _ 2 (line _ 1 (line s 0 h)))

theorem perform (h : MoveLaws s) (q : Request) : MoveLaws (perform s q).state := by
  cases q with
  | move r hub elbow p =>
    refine h.withMover _ _ fun b q => ?_
    split
    · exact h
    · exact h.placeRecord _
  | retrace r p =>
    refine h.withMover _ _ fun b q => ?_
    split
    · exact h
    · exact h.placeRecord _
  | home r p => exact h.withMover _ _ fun _ _ => h.placeRecord _
  | cancel r =>
    show MoveLaws (cancelRequest s r).state
    unfold cancelRequest
    split
    · exact h.withdraw r
    · split
      · exact h.withdraw r
      · exact h
  | halt r =>
    refine h.withReachable r ?_
    split
    · rename_i stops
      refine (h.stopMember (.halt 1) ((h.members.1 r).2 ?_)).offerHalt r
      exact (Bool.and_eq_true_iff.1 stops).2
    · exact h.offerHalt r
  | refresh r => exact h.withReachable r (h.offerRead _ _ _)
  | report | status | reset => exact h
  | load table first count records =>
    show MoveLaws (serveLoad s table first count records).state
    rcases serveLoad_cases s table first count records with k | ⟨xs, hx, hf, e⟩ | ⟨xs, hx, e⟩
    · exact h.of_records k
    · rw [e]; exact h.loadRobots hx hf
    · rw [e]; exact h.loadZones _ _ _
  | read table first count =>
    show MoveLaws (serveRead s table first count).state
    rw [Serves.serveRead_state]; exact h
  | flags => exact h.flagsRequest _ _ _ _
  | commit => exact h.commitRequest _ _ _
  | abort => exact h.abortRequest
  | take =>
    show MoveLaws (takeRequest s).state
    unfold takeRequest
    split
    · exact h
    · exact h.of_records ⟨rfl, rfl, rfl, rfl, rfl, rfl⟩
  | mask => exact h.of_records ⟨rfl, rfl, rfl, rfl, rfl, rfl⟩
  | lineReset => exact h.lineResetRequest _

/-! ### The resets -/

/-- Controller reset leaves no move, no member and no robot in a wave state (R19, R62, R90). -/
theorem controllerReset (h : MoveLaws s) : MoveLaws (controllerReset s) := by
  obtain ⟨-, -, -, -, -, o, d, w, -⟩ := controllerReset_rest s
  have slot (b : Robot) : (b.afterControllerReset.slot = .absent ↔ b.slot = .absent) ∧
      b.afterControllerReset.slot.inWave = false := by
    unfold Robot.afterControllerReset
    split
    · rename_i absent; rw [absent]; exact ⟨Iff.rfl, rfl⟩
    · rename_i present; exact ⟨iff_of_false nofun present, rfl⟩
  refine ⟨⟨by rw [o, d]; exact List.nodup_nil, by rw [State.members, w]; exact List.nodup_nil⟩, fun r => ?_,
    ⟨fun r => ?_, fun v hv => by rw [w] at hv; cases hv⟩⟩
  · rw [controllerReset_robot, (slot _).1, afterControllerReset_static]; exact h.presence r
  · rw [controllerReset_robot, (slot _).2, member?_isSome, State.members, w]; simp

theorem reset : MoveLaws State.reset where
  moves := ⟨List.nodup_nil, List.nodup_nil⟩
  presence r := by rw [reset_robot]; exact iff_of_true rfl rfl
  members := ⟨fun r => by rw [reset_robot, member?_isSome]; simp [Robot.reset, SlotState.inWave, State.members, State.reset],
    fun w hw => by cases hw⟩

/-- Every part of a step keeps the laws. -/
theorem kept : KeptByParts MoveLaws where
  apart _ _ k h := h.of_records k
  judgeEnd _ l k stale en h := h.judgeEnd l k stale en
  inFlight _ r h := h.setDelivery r _
  loseMembers _ l h := h.loseMembers l
  overrunExpired _ r h := h.overrunExpired r
  waveMark _ h := h.waveMark
  perform _ q h := h.perform q
  controllerReset _ h := h.controllerReset
  reset := reset

end MoveLaws

/-- Settles O8: each part of a step keeps the laws of moves and members together. -/
theorem stepsKeepMovesAndMembers : Obligations.StepsKeepMovesAndMembers := by
  rintro s t h ⟨moves, presence, members⟩
  obtain ⟨moves', presence', members'⟩ := MoveLaws.kept.step h ⟨moves, presence, members⟩
  exact ⟨moves', presence', members'⟩

end Sys2Proof.Machine
end

section
/-!
O4, O5, O14, O59: the values after the two resets, and a robot that becomes UNCERTAIN.
-/

namespace Sys2Proof.Machine

/-! ### Power-on reset -/

theorem reset_curve (c : Fin 256) : State.reset.curves[c] = Vector.replicate 17 0 := by simp [State.reset]

theorem reset_profile (p : ProfileNo) : State.reset.profile p = Profile.reset := by simp [State.profile, State.reset]

theorem reset_zone (z : ZoneId) : State.reset.zone z = Zone.reset := by simp [State.zone, State.reset]

theorem reset_line (l : LineNo) : State.reset.line l = Line.reset := by simp [State.line, State.reset]

theorem reset_events (c : EventClass) : Events.reset.get c = EventRec.empty := by simp [Events.get, Events.reset]

/-- Settles O4: every table of the reset state holds its one value in each place. -/
theorem powerOnValues : Obligations.PowerOnValues := by
  intro s
  refine ⟨powerOn s, rfl, rfl, rfl, rfl, fun r => ?_, fun c k => ?_, reset_profile, reset_zone, rfl, rfl, rfl, rfl,
    fun l => ?_, rfl, rfl, reset_events, rfl,
    (by decide : Events.reset.attention = 0)⟩
  · rw [show (powerOn s).robot r = Robot.reset from reset_robot r]
    exact ⟨rfl, rfl, rfl, rfl, rfl, rfl, rfl, rfl, rfl, rfl⟩
  · rw [show (powerOn s).curves[c] = Vector.replicate 17 0 from reset_curve c]
    simp
  · rw [show (powerOn s).line l = Line.reset from reset_line l]
    exact ⟨rfl, rfl, rfl, rfl, rfl, rfl, rfl, rfl, rfl, rfl, rfl, rfl⟩

theorem reset_tablesOk : TablesOk State.reset := by
  refine ⟨fun c i => ?_, fun p => ?_, fun l => ?_, ?_⟩
  · rw [reset_curve]; simp
  · rw [reset_profile]; unfold ProfileOk; decide
  · rw [reset_line]; unfold TimingOk; decide
  · unfold EpochOk; decide

/-- Settles O5: the laws of the tables and of the moves hold after reset, as their own proofs show. -/
theorem resetObeysTheLaws : Obligations.ResetObeysTheLaws := by
  refine ⟨⟨fun c => ?_, by unfold TrunkOk; simp [State.reset, Trunk.reset], by unfold DeferredOk; simp [State.reset],
      reset_tablesOk⟩, ⟨robotsOk_kept.reset, addressesOk_kept.reset, linksOk_kept.reset⟩,
    MoveLaws.reset.moves, MoveLaws.reset.presence, MoveLaws.reset.members, fun l => ?_, fun w hw => by cases hw⟩
  · rw [show State.reset.events.get c = EventRec.empty from reset_events c]
    exact fun _ => ⟨rfl, rfl⟩
  · rw [reset_line]
    exact ⟨List.nodup_nil, List.nodup_nil, by simp [Line.reset], List.nodup_nil⟩

/-! ### A robot that becomes UNCERTAIN -/

theorem heldBy_iff (e : Zone) (r : RobotNo) : e.heldBy r = true ↔ e.holder = .moving r ∨ e.holder = .parked r := by
  simp [Zone.heldBy]

/-- Settles O59, by the rules of `becomeUncertain` for a zone held, named or neither. -/
theorem uncertainRobotBlocksItsZones : Obligations.UncertainRobotBlocksItsZones := by
  intro s r
  refine ⟨by rw [becomeUncertain_robot, if_pos rfl], fun q hq => by rw [becomeUncertain_robot, if_neg hq.symm],
    fun z hz => becomeUncertain_held s r ((heldBy_iff _ r).2 hz), fun z hz => becomeUncertain_named s r hz,
    fun z hn hm hp => becomeUncertain_apart s r hn ?_⟩
  rw [Bool.eq_false_iff, Ne, heldBy_iff, not_or]
  exact ⟨hm, hp⟩

/-! ### Controller reset -/

/-- A robot that controller reset leaves is ABSENT, and OUT of every zone, or UNCERTAIN, and UNKNOWN to it (R19, R62). -/
theorem presence_afterControllerReset {s u : State} (robots : ∀ q, u.robot q = (s.robot q).afterControllerReset)
    (ms : List Member) (e : Zone) (x : Option RobotNo) (z : Nat) : u.presence ms e x z =
      if ∃ q, x = some q ∧ (s.robot q).slot ≠ .absent then .unknown else .out := by
  cases x with
  | none => simp [State.presence]
  | some q =>
    show presenceOf (u.robot q) _ _ _ = _
    rw [robots, Robot.afterControllerReset]
    by_cases h : (s.robot q).slot = .absent
    · rw [if_pos h, if_neg (by rintro ⟨_, hq, hp⟩; cases hq; exact hp h), presenceOf, h]
    · rw [if_neg h, if_pos ⟨q, rfl, h⟩]
      rfl

/-- After controller reset no entry keeps a holder, and one with a present member is BLOCKED (R62). -/
theorem settled_afterControllerReset {s u : State} (robots : ∀ q, u.robot q = (s.robot q).afterControllerReset)
    (ms : List Member) (e : Zone) (z : Nat) : (u.settled ms z e).holder =
      if ∃ q, e.names q = true ∧ (s.robot q).slot ≠ .absent then .blocked else .free := by
  have released : ¬u.keepsHolder e = true := by
    rw [keepsHolder_iff]
    rintro ⟨q, -, hw⟩
    rw [robots, Robot.afterControllerReset] at hw
    split at hw
    · rename_i absent; rw [absent] at hw; cases hw
    · cases hw
  rw [State.settled, if_neg released, presence_afterControllerReset robots, presence_afterControllerReset robots]
  dsimp only
  by_cases ha : ∃ q, e.memberA = some q ∧ (s.robot q).slot ≠ .absent
  · obtain ⟨q, hq, hp⟩ := ha
    have named : ∃ q, e.names q = true ∧ (s.robot q).slot ≠ .absent := ⟨q, by simp [Zone.names, hq], hp⟩
    rw [if_pos ⟨q, hq, hp⟩, if_pos named]
    exact holderFrom_unknown e (.inl rfl)
  · rw [if_neg ha]
    by_cases hb : ∃ q, e.memberB = some q ∧ (s.robot q).slot ≠ .absent
    · obtain ⟨q, hq, hp⟩ := hb
      have named : ∃ q, e.names q = true ∧ (s.robot q).slot ≠ .absent := ⟨q, by simp [Zone.names, hq], hp⟩
      rw [if_pos ⟨q, hq, hp⟩, if_pos named]
      exact holderFrom_unknown e (.inr rfl)
    · rw [if_neg hb, if_neg]
      · rfl
      · rintro ⟨q, hn, hp⟩
        simp only [Zone.names, Bool.or_eq_true, decide_eq_true_eq] at hn
        exact hn.elim (fun h => ha ⟨q, h, hp⟩) fun h => hb ⟨q, h, hp⟩

/-- A request command that a ready part carries out without a change is answered at once. -/
theorem exec_answer {c : Instr} {f : Frame} {s : State} (hq : requestFrame c = some f) (ready : Ready s)
    (fits : f.payload.length ≤ Config.payloadMax) {t : State} {status : Status} {payload : List Byte}
    (served : serve s.hunting f = ⟨t.hunting, status, payload⟩) :
    exec c s = .next (t.answer f.dest f.kind status payload) := by
  rw [exec_request hq ready.1, submit_ready ready fits, served]
  rfl

/-- The end of a RESET's reply applies controller reset, and finds no request waiting (R170). -/
theorem replyEnds_reset {s : State} {r : Reply} (hd : s.trunk.disp = .replying r) (hr : r.isReset = true) :
    replyEnds s = { controllerReset s with trunk := { s.trunk with queue := [], disp := .waiting } } := by
  obtain ⟨-, -, -, -, -, -, -, -, -, -, trunk, -⟩ := controllerReset_rest s
  unfold replyEnds
  rw [hd]
  dsimp only
  rw [if_pos hr, trunk]
  rfl

/-- Settles O14: the reply, then controller reset block by block. -/
theorem controllerResetResult : Obligations.ControllerResetResult := by
  refine ⟨fun s ready => exec_answer (f := bareFrame 0xFFFF 25) rfl ready (Nat.zero_le _) rfl, fun s r low disp kind status => ?_⟩
  have isReset : r.isReset = true := by simp [Reply.isReset, resetKind, kind, status]
  obtain ⟨-, -, timer, curves, profiles, openWave, deferred, wave, counter, epoch, -, events⟩ := controllerReset_rest s
  refine ⟨_, (running_run low _).trans (congrArg _ (replyEnds_reset disp isReset)), rfl, timer, epoch, curves, profiles,
    openWave, deferred, wave, counter, fun q hq => ?_, fun q hq => ?_, fun l => ?_, fun z => ?_, fun c => ?_, ?_⟩
  · show (controllerReset s).robot q = _
    rw [controllerReset_robot, Robot.afterControllerReset, if_pos hq]
  · show (controllerReset s).robot q = _
    rw [controllerReset_robot, Robot.afterControllerReset, if_neg hq]
  · have line : ∀ t : Trunk, State.line { controllerReset s with trunk := t } l = (s.line l).afterControllerReset :=
      fun _ => controllerReset_line s l
    rw [line]
    refine ⟨rfl, rfl, rfl, rfl, rfl, rfl, rfl, rfl, rfl, rfl, rfl, fun ρ hρ => ?_, fun none => ?_⟩
    · simp [Line.afterControllerReset, Line.residueAfter, hρ]
    · simp only [Line.afterControllerReset, Line.residueAfter, none]
      cases (s.line l).txn with
      | none => rfl
      | some x => cases h : x.phase <;> simp [Txn.residue, h]
  · obtain ⟨u, robots, zone⟩ := controllerReset_zone s z
    show ((controllerReset s).zone z).memberA = _ ∧ ((controllerReset s).zone z).memberB = _ ∧
      ((controllerReset s).zone z).holder = _
    rw [zone]
    exact ⟨settled_memberA .., settled_memberB .., settled_afterControllerReset robots _ _ _⟩
  · show (controllerReset s).events.get c = _
    rw [events]; exact reset_events c
  · show (controllerReset s).events.masks = _
    rw [events]; rfl

end Sys2Proof.Machine
end

section
/-!
O27: FLAGS.
-/

namespace Sys2Proof.Machine

/-- The indices that satisfy a test are as many as the places of the list that satisfy it. -/
theorem indicesFrom_length {α : Type} (p : Nat → α → Bool) (i : Nat) (l : List α) :
    (indicesFrom p i l).length = ((List.finRange l.length).filter fun k => p (i + k.val) l[k]).length := by
  induction l generalizing i with
  | nil => rfl
  | cons a l ih =>
    have tail : ((List.finRange l.length).map Fin.succ).filter (fun k => p (i + k.val) (a :: l)[k]) =
        ((List.finRange l.length).filter fun k => p (i + 1 + k.val) l[k]).map Fin.succ := by
      rw [List.filter_map]
      refine congrArg _ (List.filter_congr fun k _ => ?_)
      simp [Nat.add_assoc, Nat.add_comm 1]
    have all : (List.finRange (a :: l).length).filter (fun k => p (i + k.val) (a :: l)[k]) =
        (if p i a then [(0 : Fin (l.length + 1))] else []) ++
          ((List.finRange l.length).filter fun k => p (i + 1 + k.val) l[k]).map Fin.succ := by
      have places : List.finRange (a :: l).length = (0 : Fin (l.length + 1)) :: (List.finRange l.length).map Fin.succ :=
        List.finRange_succ
      refine (congrArg _ places).trans (List.filter_cons.trans ?_)
      refine (if_congr Iff.rfl (congrArg _ tail) tail).trans ?_
      show (if p i a = true then _ else _) = _
      split <;> rfl
    rw [all, List.length_append, List.length_map, ← ih (i + 1), indicesFrom]
    split <;> simp [*, Nat.add_comm]

theorem indicesFrom_vector {α : Type} {n : Nat} (p : Nat → α → Bool) (v : Vector α n) :
    (indicesFrom p 0 v.toList).length = ((List.finRange n).filter fun k => p k.val v[k]).length := by
  obtain ⟨⟨l⟩, rfl⟩ := v
  exact (indicesFrom_length p 0 l).trans (by simp only [Nat.zero_add]; rfl)

theorem mapTable_length_changed {α : Type} [DecidableEq α] {n : Nat} (f : Nat → α → α) (v : Vector α n) :
    (indicesFrom (fun i a => decide (f i a ≠ a)) 0 v.toList).length =
      ((List.finRange n).filter fun k => (mapTable f v)[k] ≠ v[k]).length := by
  rw [indicesFrom_vector]
  simp only [mapTable_getElem_fin]

/-- A record changes under an operation exactly when a flag of it changes value. -/
theorem flagsChange_eq (b : Robot) (op : FlagsOp) (mask : Byte) :
    b.flagsChange op mask = decide (b.flagged op mask ≠ b) := by
  unfold Robot.flagsChange Robot.flagged
  split
  · simp
  · obtain ⟨⟩ := b
    rename_i st _ _ _ _ _ _ _ _ _ _
    obtain ⟨⟩ := st
    simp

/-- The robot table after FLAGS. -/
def flaggedTable (s : State) (first last : Half) (op : FlagsOp) (mask : Byte) : Vector Robot 480 :=
  mapTable (fun i b => if inRange first last i then b.flagged op mask else b) s.robots

theorem flagsRequest_of_op (s : State) {first last : Half} {code : Byte} {op : FlagsOp} (hop : flagsOp? code = some op)
    (mask : Byte) : flagsRequest s first last code mask =
      if 479 < first.toNat ∨ 479 < last.toNat ∨ last.toNat < first.toNat then ⟨s, .error, [Reason.index.code]⟩
      else ⟨{ s with robots := flaggedTable s first last op mask }, .ok, le16 (halfOf
        ((List.finRange 480).filter fun r => (flaggedTable s first last op mask)[r] ≠ s.robot r).length)⟩ := by
  have count : (indicesFrom (fun i b => inRange first last i && b.flagsChange op mask) 0 s.robots.toList).length =
      ((List.finRange 480).filter fun r => (flaggedTable s first last op mask)[r] ≠ s.robot r).length := by
    refine Eq.trans ?_ (mapTable_length_changed _ s.robots)
    congr 2
    funext i b
    rw [flagsChange_eq]
    cases inRange first last i <;> simp
  rw [flagsRequest, hop]
  dsimp only
  rw [count]
  rfl

theorem flags_run {s : State} (ready : Ready s) {c : Instr} {first last : Half} {code mask : Byte} {op : FlagsOp}
    (hc : requestFrame c = some (flagsFrame 0xFFFF first last code mask)) (hop : flagsOp? code = some op) :
    exec c s = .next (if 479 < first.toNat ∨ 479 < last.toNat ∨ last.toNat < first.toNat then s.deny 0xFFFF 18 .index
      else ({ s with robots := flaggedTable s first last op mask }).answer 0xFFFF 18 .ok (le16 (halfOf
        ((List.finRange 480).filter fun r => (flaggedTable s first last op mask)[r] ≠ s.robot r).length))) := by
  have served : serve s.hunting (flagsFrame 0xFFFF first last code mask) = flagsRequest s.hunting first last code mask := by
    rw [serve, parse_flags]; rfl
  rw [flagsRequest_of_op _ hop] at served
  have fits : (flagsFrame 0xFFFF first last code mask).payload.length ≤ Config.payloadMax := by
    simp [flagsFrame, le16, Config.payloadMax]
  split
  · rename_i h
    rw [if_pos h] at served
    exact exec_answer hc ready fits served
  · rename_i h
    rw [if_neg h] at served
    exact exec_answer (t := { s with robots := flaggedTable s first last op mask }) hc ready fits served

/-- A record of the run after FLAGS. -/
theorem flaggedTable_robot (s : State) (first last : Half) (op : FlagsOp) (mask : Byte) (r : RobotNo) :
    (flaggedTable s first last op mask)[r] =
      if first.toNat ≤ r.val ∧ r.val ≤ last.toNat ∧ (s.robot r).static.present = true then
        { s.robot r with static := { (s.robot r).static with
            enable := if mask.getLsbD 0 then op.apply true (s.robot r).static.enable else (s.robot r).static.enable
            priority := if mask.getLsbD 1 then op.apply true (s.robot r).static.priority else (s.robot r).static.priority } }
      else s.robot r := by
  have apply (x f : Bool) : op.apply x f = if x then op.apply true f else f := by cases x <;> cases op <;> rfl
  refine (mapTable_getElem_fin _ s.robots r).trans ?_
  show (if inRange first last r.val then (s.robot r).flagged op mask else s.robot r) = _
  by_cases hr : first.toNat ≤ r.val ∧ r.val ≤ last.toNat
  · have inside : inRange first last r.val = true := by simp [inRange, hr]
    rw [if_pos inside, Robot.flagged, apply (flagBit mask 0), apply (flagBit mask 1)]
    by_cases hp : (s.robot r).static.present = true
    · have here : first.toNat ≤ r.val ∧ r.val ≤ last.toNat ∧ (s.robot r).static.present = true := ⟨hr.1, hr.2, hp⟩
      rw [if_neg (by rw [hp]; decide), if_pos here]
      rfl
    · rw [if_pos (Bool.eq_false_iff.2 hp), if_neg fun h => hp h.2.2]
  · have outside : ¬inRange first last r.val = true := by
      simpa only [inRange, Bool.and_eq_true, decide_eq_true_eq] using hr
    rw [if_neg outside, if_neg fun h => hr ⟨h.1, h.2.1⟩]

/-- Settles O27: the three operations are one request with an operation code each. -/
theorem flagsOutcome : Obligations.FlagsOutcome := by
  intro s first last mask ready
  have denied {c : Instr} {code : Byte} {op : FlagsOp}
      (hc : requestFrame c = some (flagsFrame 0xFFFF first last code mask)) (hop : flagsOp? code = some op)
      (h : 479 < first.toNat ∨ 479 < last.toNat ∨ last.toNat < first.toNat) :=
    (flags_run ready hc hop).trans (congrArg _ (if_pos h))
  have answered {c : Instr} {code : Byte} {op : FlagsOp}
      (hc : requestFrame c = some (flagsFrame 0xFFFF first last code mask)) (hop : flagsOp? code = some op)
      (h1 : first.toNat ≤ last.toNat) (h2 : last.toNat ≤ 479) :=
    (flags_run ready hc hop).trans (congrArg _ (if_neg (by omega)))
  exact ⟨⟨denied (op := .set) rfl rfl, fun h1 h2 =>
      ⟨_, flaggedTable_robot s first last .set mask, answered rfl rfl h1 h2⟩⟩,
    ⟨denied (op := .clear) rfl rfl, fun h1 h2 =>
      ⟨_, flaggedTable_robot s first last .clear mask, answered rfl rfl h1 h2⟩⟩,
    denied (op := .toggle) rfl rfl, fun h1 h2 =>
      ⟨_, flaggedTable_robot s first last .toggle mask, answered rfl rfl h1 h2⟩⟩

end Sys2Proof.Machine
end

section
/-!
O55: the sweep tables and the sets they stand for.
-/

namespace Sys2Proof.Machine

/-! ### Sets of hub angles -/

theorem inHubSet_iff (a b h : Int) :
    inHubSet a b h = true ↔ if a ≤ b then a ≤ h ∧ h ≤ b else h ≤ b ∨ a ≤ h := by
  unfold inHubSet; split <;> simp

theorem overlapsHubSet_iff (a b lo hi : Int) :
    overlapsHubSet a b lo hi = true ↔ if a ≤ b then lo ≤ b ∧ a ≤ hi else lo ≤ b ∨ a ≤ hi := by
  unfold overlapsHubSet; split <;> simp

/-- An interval overlaps a set when it holds an angle of it: its end nearest the set is one. -/
theorem overlapsHubSet_iff_exists (a b : Int) {lo hi : Int} (h : lo ≤ hi) :
    overlapsHubSet a b lo hi = true ↔ ∃ x, lo ≤ x ∧ x ≤ hi ∧ inHubSet a b x = true := by
  simp only [overlapsHubSet_iff, inHubSet_iff]
  by_cases plain : a ≤ b
  · simp only [if_pos plain]
    exact ⟨fun h => ⟨max lo a, by omega, by omega, by omega, by omega⟩, fun ⟨x, _, _, _, _⟩ => by omega⟩
  · simp only [if_neg plain]
    constructor
    · rintro (low | high)
      · exact ⟨lo, by omega, by omega, .inl low⟩
      · exact ⟨hi, by omega, by omega, .inr high⟩
    · rintro ⟨x, _, _, low | high⟩
      · exact .inl (by omega)
      · exact .inr (by omega)

/-- An interval within the hub range holds an angle outside a set: one below or above a plain set, one
between the ends of a wrapped set. -/
theorem outsideSet_iff_exists (fs fe : Int) {lo hi : Int} (hlo : -190000 ≤ lo) (h : lo ≤ hi) (hhi : hi ≤ 190000) :
    (if fs ≤ fe then lo < fs ∨ fe < hi else lo ≤ fs - 1 ∧ fe + 1 ≤ hi ∧ fe + 1 ≤ fs - 1) ↔
      ∃ x, lo ≤ x ∧ x ≤ hi ∧ -190000 ≤ x ∧ x ≤ 190000 ∧ ¬inHubSet fs fe x = true := by
  simp only [inHubSet_iff]
  by_cases plain : fs ≤ fe
  · simp only [if_pos plain]
    constructor
    · rintro (low | high)
      · exact ⟨lo, by omega, by omega, by omega, by omega, by omega⟩
      · exact ⟨hi, by omega, by omega, by omega, by omega, by omega⟩
    · rintro ⟨x, h1, h2, -, -, h3⟩
      omega
  · simp only [if_neg plain]
    constructor
    · rintro ⟨h1, h2, h3⟩
      exact ⟨max lo (fe + 1), by omega, by omega, by omega, by omega, by omega⟩
    · rintro ⟨x, h1, h2, -, -, h3⟩
      omega

/-- The table of R35 for each mode of the fence. -/
theorem sweepForbidden_iff_exists {b : RobotStatic} {a c : Int} (ha : -190000 ≤ a) (h : a ≤ c) (hc : c ≤ 190000) :
    sweepForbidden b a c = true ↔ ∃ x, a ≤ x ∧ x ≤ c ∧ forbidden b x = true := by
  cases mode : b.fenceMode with
  | off => simp [sweepForbidden, forbidden, mode]
  | inside =>
    have table : sweepForbidden b a c = overlapsHubSet b.fs.toInt b.fe.toInt a c := by
      simp [sweepForbidden, overlapsHubSet, mode]
    rw [table, overlapsHubSet_iff_exists _ _ h]
    simp [forbidden, mode]
  | outside =>
    have table : sweepForbidden b a c = true ↔ if b.fs.toInt ≤ b.fe.toInt then a < b.fs.toInt ∨ b.fe.toInt < c
        else a ≤ b.fs.toInt - 1 ∧ b.fe.toInt + 1 ≤ c ∧ b.fe.toInt + 1 ≤ b.fs.toInt - 1 := by
      simp only [sweepForbidden, mode]
      split <;> simp
    rw [table, outsideSet_iff_exists _ _ ha h hc]
    simp [forbidden, mode]
    rfl

/-! ### Links -/

/-- Hub angle `h` and elbow angle `e` meet the zone of a link (R45). -/
def Link.meets (k : Link) (h e : Int) : Prop :=
  k.thr.toInt ≤ e ∧ if k.ws.toInt ≤ k.we.toInt then k.ws.toInt ≤ h ∧ h ≤ k.we.toInt else h ≤ k.we.toInt ∨ k.ws.toInt ≤ h

/-- Some position between two, on both axes, meets the zone of a link (R47). -/
def Link.reached (k : Link) (a b : Pair) : Prop :=
  ∃ h e : Int, k.meets h e ∧ min a.hub.toInt b.hub.toInt ≤ h ∧ h ≤ max a.hub.toInt b.hub.toInt ∧
    min a.elbow.toInt b.elbow.toInt ≤ e ∧ e ≤ max a.elbow.toInt b.elbow.toInt

theorem meets_iff (k : Link) (h e : Int) :
    k.meets h e ↔ k.thr.toInt ≤ e ∧ inHubSet k.ws.toInt k.we.toInt h = true := by
  rw [inHubSet_iff]; rfl

theorem intrudedAt_iff_meets (k : Link) (a : Pair) : k.intrudedAt a = true ↔ k.meets a.hub.toInt a.elbow.toInt := by
  have window : k.inWindow a.hub.toInt = inHubSet k.ws.toInt k.we.toInt a.hub.toInt := by
    simp only [Link.inWindow, overlapsHubSet, inHubSet, and_comm]
  rw [meets_iff, Link.intrudedAt, window, Bool.and_eq_true, decide_eq_true_eq, and_comm]

/-- The swept test is exact: the larger elbow end reaches the threshold when any angle between does. -/
theorem sweptBy_iff_reached (k : Link) (a b : Pair) : k.sweptBy a b = true ↔ k.reached a b := by
  have ends := min_le_max (a := a.hub.toInt) (b := b.hub.toInt)
  rw [Link.sweptBy, Bool.and_eq_true, decide_eq_true_eq, overlapsHubSet_iff_exists _ _ ends, Link.reached]
  simp only [meets_iff]
  constructor
  · rintro ⟨⟨h, h1, h2, hw⟩, he⟩
    exact ⟨h, _, ⟨he, hw⟩, h1, h2, min_le_max, le_rfl⟩
  · rintro ⟨h, e, ⟨he, hw⟩, h1, h2, -, he'⟩
    exact ⟨⟨h, h1, h2, hw⟩, he.trans he'⟩

/-- The intrusions at start and target add nothing to the swept test (R47). -/
theorem neededFor_iff_reached (k : Link) (a b : Pair) : k.neededFor a b = true ↔ k.reached a b := by
  rw [Link.neededFor, Bool.or_eq_true, Bool.or_eq_true, sweptBy_iff_reached, intrudedAt_iff_meets, intrudedAt_iff_meets]
  refine ⟨?_, .inr⟩
  rintro ((start | target) | swept)
  · exact ⟨_, _, start, min_le_left .., le_max_left .., min_le_left .., le_max_left ..⟩
  · exact ⟨_, _, target, min_le_right .., le_max_right .., min_le_right .., le_max_right ..⟩
  · exact swept

/-! ### Needed zones -/

theorem neededBy_start (k : Link) (kind : MoveKind) {p : Plan} {start : Position} (h : p.start = some start) :
    k.neededBy kind p =
      if kind = .home then k.intrudedAt start.angles else k.neededFor start.angles p.target.angles := by
  unfold Link.neededBy
  rw [h]
  cases kind <;> rfl

/-- Settles O55, by the exactness of each table. -/
theorem sweepsMeetTheirSets : Obligations.SweepsMeetTheirSets := by
  refine ⟨fun b a c _ _ => sweepForbidden_iff_exists,
    fun k a b => ⟨intrudedAt_iff_meets k a, sweptBy_iff_reached k a b, neededFor_iff_reached k a b⟩,
    fun links kind p => ⟨List.Sublist.map _ List.filter_sublist, fun none => ?_, fun start hs z => ?_⟩⟩
  · simp [neededZones, Link.neededBy, none]
  · simp only [neededZones, List.mem_map, List.mem_filter, neededBy_start _ kind hs]
    exact exists_congr fun k => by tauto

end Sys2Proof.Machine
end

section
/-!
O11: the checks of a complete frame.
-/

namespace Sys2Proof.Machine

/-! ### The first check that fails -/

/-- The reason with which a frame is refused, if it is. -/
def reasonOf : Except Reason Request → Option Reason
  | .error why => some why
  | .ok _ => none

theorem reasonOf_some {x : Except Reason Request} {why : Reason} (h : reasonOf x = some why) : x = .error why := by
  cases x with
  | error e => exact congrArg _ (Option.some.inj h)
  | ok q => cases h

theorem reasonOf_none {x : Except Reason Request} (h : reasonOf x = none) : ∃ q, x = .ok q := by
  cases x with
  | error e => cases h
  | ok q => exact ⟨q, rfl⟩

variable {f : Frame} {len : Nat}

theorem kindCodes (kind : Byte) :
    (robotKind kind = true ↔ 1 ≤ kind.toNat ∧ kind.toNat ≤ 7) ∧
      (controllerKind kind = true ↔ 16 ≤ kind.toNat ∧ kind.toNat ≤ 25) := by
  simp [robotKind, controllerKind]

/-- A robot-addressed frame is checked for its destination, then for its one length (R161). -/
theorem frameFault_robot (hk : 1 ≤ f.kind.toNat ∧ f.kind.toNat ≤ 7) (q : RobotNo → Request)
    (hl : lengthFits f.kind f.payload.length = decide (f.payload.length = len)) :
    frameFault f = reasonOf (robotRequest f len q) := by
  obtain ⟨robot, controller⟩ := kindCodes f.kind
  have isRobot : robotKind f.kind = true := robot.2 hk
  have notController : controllerKind f.kind = false := by rw [Bool.eq_false_iff, Ne, controller]; omega
  have all : f.dest = 0xFFFF → 480 ≤ f.dest.toNat := by intro h; rw [h]; decide
  unfold frameFault robotRequest index?
  rw [isRobot, notController, hl]
  by_cases hd : f.dest.toNat < 480
  · have named : f.dest ≠ 0xFFFF := fun h => absurd (all h) (by omega)
    rw [dif_pos hd, if_neg (by decide), if_neg (by omega),
      if_neg (by rintro (⟨-, h⟩ | ⟨h, -⟩); exacts [named h, absurd h (by decide)])]
    by_cases fits : f.payload.length = len <;> simp [fits, reasonOf]
  · rw [dif_neg hd]
    by_cases hall : f.dest = 0xFFFF
    · rw [if_neg (by decide), if_neg (by simp [hall]), if_pos (by simp [hall])]; rfl
    · rw [if_neg (by decide), if_pos ⟨by omega, hall⟩]; rfl

/-- A controller-addressed frame is checked for its destination, then for its length (R161). -/
theorem frameFault_controller (hk : 16 ≤ f.kind.toNat ∧ f.kind.toNat ≤ 25) (q : Request) {fits : Bool}
    (hl : lengthFits f.kind f.payload.length = fits) : frameFault f = reasonOf (controllerRequest f fits q) := by
  obtain ⟨robot, controller⟩ := kindCodes f.kind
  have isController : controllerKind f.kind = true := controller.2 hk
  have notRobot : robotKind f.kind = false := by rw [Bool.eq_false_iff, Ne, robot]; omega
  unfold frameFault controllerRequest
  rw [isController, notRobot, hl]
  by_cases hd : f.dest = 0xFFFF
  · rw [if_neg (by decide), if_neg (by simp [hd]), if_neg (by simp [hd]), if_pos hd]
    cases fits <;> rfl
  · rw [if_neg (by decide), if_neg hd]
    by_cases far : 480 ≤ f.dest.toNat
    · rw [if_pos ⟨far, hd⟩]; rfl
    · rw [if_neg fun h => far h.1, if_pos (.inr ⟨rfl, hd⟩)]; rfl

/-- A frame is refused for the first check it fails, kind by kind (R161). -/
theorem frameFault_eq (f : Frame) : frameFault f = reasonOf (parseRequest f) := by
  unfold parseRequest
  dsimp only
  split
  iterate 7 next h => exact frameFault_robot (by omega) _ (by simp [lengthFits, h])
  iterate 10 next h => exact frameFault_controller (by omega) _ (by simp [lengthFits, h])
  next =>
    -- The seventeen codes are excluded: no other lies in the two ranges.
    obtain ⟨robot, controller⟩ := kindCodes f.kind
    have notRobot : robotKind f.kind = false := by rw [Bool.eq_false_iff, Ne, robot]; grind
    have notController : controllerKind f.kind = false := by rw [Bool.eq_false_iff, Ne, controller]; grind
    rw [frameFault, notRobot, notController]; rfl

/-! ### A complete frame -/

variable {s : State} {check : Half}

/-- A frame with a bad CRC is discarded and counted (R155, R158). -/
theorem frame_badCheck (low : s.resetLow = false) (rx : s.trunk.rx = .frame) (fits : f.payload.length ≤ 512)
    (bad : check ≠ crc f.checked) : exec (.trunkFrameComplete f.dest f.kind f.payload check) s =
      .next ((badCheck s).setRx .hunt) := by
  refine (running_run low fun s => frameComplete s f check).trans (congrArg _ ?_)
  unfold frameComplete
  rw [rx]
  dsimp only
  rw [if_neg (by simp only [Config.payloadMax]; omega), if_neg bad]

/-- A good frame that finds the part ready is carried out at once, and its reply begins (R155, R159). -/
theorem frame_good (ready : Ready s) (rx : s.trunk.rx = .frame) (fits : f.payload.length ≤ 512)
    (good : check = crc f.checked) : exec (.trunkFrameComplete f.dest f.kind f.payload check) s =
      .next ((serve s.hunting f).state.replying (replyTo f (serve s.hunting f))) := by
  refine (running_run ready.1 fun s => frameComplete s f check).trans (congrArg _ ?_)
  have short : ¬Config.payloadMax < f.payload.length := by simp only [Config.payloadMax]; omega
  rw [← submit_ready ready (by omega)]
  unfold frameComplete submit
  rw [rx]
  dsimp only
  rw [if_neg short, if_neg short, if_pos good]

/-- A good frame served with an ERROR changes nothing (R160). -/
theorem frame_denied (ready : Ready s) (rx : s.trunk.rx = .frame) (fits : f.payload.length ≤ 512)
    (good : check = crc f.checked) {why : Reason} (served : serve s.hunting f = Served.error s.hunting why) :
    exec (.trunkFrameComplete f.dest f.kind f.payload check) s = .next (s.deny f.dest f.kind why) := by
  rw [frame_good ready rx fits good, served]; rfl

theorem loadShape_undefined {table : Byte} (h : table = 0 ∨ 6 < table.toNat) : loadShape table = none := by
  have : table.toNat = 0 ∨ 6 < table.toNat := h.imp_left fun h => by rw [h]; rfl
  unfold loadShape
  split
  iterate 6 next => omega
  rfl

theorem readShape_undefined {table : Byte} (h : table = 0 ∨ 10 < table.toNat) : readShape table = none := by
  have : table.toNat = 0 ∨ 10 < table.toNat := h.imp_left fun h => by rw [h]; rfl
  unfold readShape
  split
  iterate 10 next => omega
  rfl

theorem flagsOp?_undefined {op : Byte} (h : op = 0 ∨ 3 < op.toNat) : flagsOp? op = none := by
  have : op.toNat = 0 ∨ 3 < op.toNat := h.imp_left fun h => by rw [h]; rfl
  unfold flagsOp?
  split
  iterate 3 next => omega
  rfl

/-- Settles O11: a bad check, the checks of R161, a request carried out, and the codes that the owners refuse. -/
theorem framesAreChecked : Obligations.FramesAreChecked := by
  intro dest kind payload check s low rx fits
  refine ⟨fun bad => frame_badCheck (f := ⟨dest, kind, payload⟩) low rx fits bad, fun good waiting empty => ?_⟩
  have ready : Ready s := ⟨low, by rw [rx]; decide, waiting, empty⟩
  have hunting : s.hunting = { s with trunk := { s.trunk with rx := .hunt } } := by rw [State.hunting, ← empty]
  have denied {f : Frame} {why : Reason} (hf : (⟨dest, kind, payload⟩ : Frame) = f)
      (served : serve s.hunting f = Served.error s.hunting why) :
      exec (.trunkFrameComplete dest kind payload check) s = .next (s.deny dest kind why) :=
    frame_denied (f := ⟨dest, kind, payload⟩) ready rx fits good (hf ▸ served)
  refine ⟨fun why fault => denied rfl ?_, fun none => ?_, fun table first count records => ?_,
    fun first last op mask => ?_⟩
  · rw [serve, reasonOf_some ((frameFault_eq _).symm.trans fault)]
  · obtain ⟨q, hq⟩ := reasonOf_none ((frameFault_eq _).symm.trans none)
    refine ⟨q, hq, (frame_good (f := ⟨dest, kind, payload⟩) ready rx fits good).trans (congrArg _ ?_)⟩
    have served : serve s.hunting ⟨dest, kind, payload⟩ = perform s.hunting q := by rw [serve, hq]
    have trunk := (Serves.serve (s := s.hunting) ⟨dest, kind, payload⟩).trunk
    rw [served] at trunk ⊢
    rw [State.replying, trunk, hunting]
    simp only [empty]
    rfl
  · rintro rfl
    refine ⟨?_, ?_⟩
    · rintro rfl rfl code
      exact denied (f := loadFrame 0xFFFF table first count records) rfl (by
        rw [serve, parse_load]; simp only [perform, serveLoad, loadShape_undefined code])
    · rintro rfl rfl code
      exact denied (f := readFrame 0xFFFF table first count) rfl (by
        rw [serve, parse_read]; simp only [perform, serveRead, readShape_undefined code])
  · rintro rfl rfl rfl code
    refine denied (f := flagsFrame 0xFFFF first last op mask) rfl ?_
    rw [serve, parse_flags]
    simp only [perform, flagsRequest, flagsOp?_undefined code]
    split <;> rfl

end Sys2Proof.Machine
end

section
/-!
SUPPORT. The fields of byte lists: windows, runs of records of one width, flag bytes.
-/

namespace Sys2Proof.Machine

/-! ### Fields of a window -/

variable (bs : List Byte)

theorem u8_drop (n o : Nat) : u8 (bs.drop n) o = u8 bs (n + o) := by
  simp [u8, List.getD_eq_getElem?_getD, List.getElem?_drop]

theorem u16_drop (n o : Nat) : u16 (bs.drop n) o = u16 bs (n + o) := by simp [u16, u8_drop, Nat.add_assoc]

theorem u32_drop (n o : Nat) : u32 (bs.drop n) o = u32 bs (n + o) := by simp [u32, u16_drop, Nat.add_assoc]

theorem u8_take {n o : Nat} (h : o < n) : u8 (bs.take n) o = u8 bs o := by
  simp [u8, List.getD_eq_getElem?_getD, h]

theorem u16_take {n o : Nat} (h : o + 1 < n) : u16 (bs.take n) o = u16 bs o := by
  simp only [u16, u8_take bs h, u8_take bs (Nat.lt_of_succ_lt h)]

theorem u32_take {n o : Nat} (h : o + 3 < n) : u32 (bs.take n) o = u32 bs o := by
  simp only [u32, u16_take bs (show o + 2 + 1 < n from h), u16_take bs (show o + 1 < n by omega)]

/-- A byte of a list in two parts. -/
theorem u8_append (a b : List Byte) (o : Nat) : u8 (a ++ b) o = if o < a.length then u8 a o else u8 b (o - a.length) := by
  split
  · rename_i h
    simp [u8, List.getD_eq_getElem?_getD, List.getElem?_append_left h]
  · rename_i h
    simp [u8, List.getD_eq_getElem?_getD, List.getElem?_append_right (Nat.le_of_not_lt h)]

@[simp] theorem u8_replicate_zero (n o : Nat) : u8 (List.replicate n 0) o = 0 := by
  unfold u8
  rw [List.getD_eq_getElem?_getD, List.getElem?_replicate]
  split <;> rfl

/-- A two-byte field found at its two bytes. -/
theorem u16_bytes (h : Half) : h.extractLsb' 8 8 ++ h.extractLsb' 0 8 = h := u16_le16 h []

/-- A four-byte field found at its four bytes. -/
theorem u32_bytes (w : Word) :
    (w.extractLsb' 24 8 ++ w.extractLsb' 16 8) ++ (w.extractLsb' 8 8 ++ w.extractLsb' 0 8) = w := u32_le32 w []

/-! ### Runs of records of one width -/

variable {α : Type} {f : α → List Byte} {width : Nat}

theorem flatMap_length {xs : List α} (h : ∀ x ∈ xs, (f x).length = width) :
    (xs.flatMap f).length = xs.length * width := by
  induction xs with
  | nil => simp
  | cons x xs ih =>
    rw [List.flatMap_cons, List.length_append, ih fun y hy => h y (List.mem_cons_of_mem _ hy), h x List.mem_cons_self,
      List.length_cons, Nat.succ_mul, Nat.add_comm]

/-- Record `i` of a run is found at `i` times the width. -/
theorem flatMap_record {xs : List α} (h : ∀ x ∈ xs, (f x).length = width) {i : Nat} (hi : i < xs.length) :
    ((xs.flatMap f).drop (i * width)).take width = f xs[i] := by
  induction xs generalizing i with
  | nil => exact absurd hi (Nat.not_lt_zero i)
  | cons x xs ih =>
    have head := h x List.mem_cons_self
    cases i with
    | zero => rw [List.flatMap_cons, Nat.zero_mul, List.drop_zero, ← head, List.take_left]; rfl
    | succ i =>
      have inner : i < xs.length := Nat.lt_of_succ_lt_succ hi
      rw [List.flatMap_cons, Nat.succ_mul, Nat.add_comm, ← List.drop_drop, ← head, List.drop_left, head,
        ih (fun y hy => h y (List.mem_cons_of_mem _ hy)) inner]
      rfl

/-- A byte of record `i` of a run that stands after a list and before another. -/
theorem u8_record (h : ∀ x, (f x).length = width) (pre post : List Byte) {xs : List α} {i : Nat} (hi : i < xs.length)
    {o : Nat} (ho : o < width) : u8 (pre ++ (xs.flatMap f ++ post)) (pre.length + (i * width + o)) = u8 (f xs[i]) o := by
  have inside : i * width + o < (xs.flatMap f).length := by
    rw [flatMap_length fun x _ => h x]
    calc i * width + o < (i + 1) * width := by rw [Nat.succ_mul]; omega
      _ ≤ xs.length * width := Nat.mul_le_mul_right _ hi
  rw [u8_append_right, u8_append, if_pos inside, ← u8_drop, ← u8_take _ ho, flatMap_record (fun x _ => h x) hi]

theorem u16_record (h : ∀ x, (f x).length = width) (pre post : List Byte) {xs : List α} {i : Nat} (hi : i < xs.length)
    {o : Nat} (ho : o + 1 < width) :
    u16 (pre ++ (xs.flatMap f ++ post)) (pre.length + (i * width + o)) = u16 (f xs[i]) o :=
  congrArg₂ (fun a b : Byte => a ++ b) (u8_record h pre post hi ho) (u8_record h pre post hi (Nat.lt_of_succ_lt ho))

theorem u32_record (h : ∀ x, (f x).length = width) (pre post : List Byte) {xs : List α} {i : Nat} (hi : i < xs.length)
    {o : Nat} (ho : o + 3 < width) :
    u32 (pre ++ (xs.flatMap f ++ post)) (pre.length + (i * width + o)) = u32 (f xs[i]) o :=
  congrArg₂ (fun a b : Half => a ++ b) (u16_record h pre post hi (o := o + 2) ho)
    (u16_record h pre post hi (show o + 1 < width by omega))

/-- A run of at most `n` records with the slots beyond them zero is a run of `n` records, when the zero record is all
zeros. -/
theorem flatMap_padded (zero : α) (hz : f zero = List.replicate width 0) (xs : List α) (n : Nat) :
    (xs.take n).flatMap f ++ List.replicate ((n - xs.length) * width) 0 =
      (xs.take n ++ List.replicate (n - xs.length) zero).flatMap f := by
  rw [List.flatMap_append]
  congr 1
  induction n - xs.length with
  | zero => simp
  | succ k ih =>
    rw [List.replicate_succ, List.flatMap_cons, ← ih, hz, Nat.succ_mul, Nat.add_comm, List.replicate_append_replicate]

theorem padded_getElem {xs : List α} {zero : α} {n i : Nat} (hi : i < n)
    (h : i < (xs.take n ++ List.replicate (n - xs.length) zero).length) :
    (xs.take n ++ List.replicate (n - xs.length) zero)[i] = xs.getD i zero := by
  rw [List.getElem_append]
  split
  · rename_i inside
    rw [List.length_take] at inside
    rw [List.getElem_take, List.getD_eq_getElem _ _ (by omega)]
  · rename_i outside
    rw [List.length_take] at outside
    rw [List.getElem_replicate, List.getD_eq_default _ _ (by omega)]

/-! ### Flag bytes -/

theorem recordFlags_bits (b : RobotStatic) : (recordFlags b).getLsbD 0 = b.enable ∧
    (recordFlags b).getLsbD 1 = b.priority ∧ (recordFlags b).toNat < 4 := by
  unfold recordFlags
  cases b.enable <;> cases b.priority <;> decide

theorem replyFlags_bits (hub elbow : Bool) : (replyFlags hub elbow false).getLsbD 0 = hub ∧
    (replyFlags hub elbow false).getLsbD 1 = elbow ∧ (replyFlags hub elbow false).toNat < 4 := by
  cases hub <;> cases elbow <;> decide

theorem broadcastFlags_bits (e : Line) : (broadcastFlags e).getLsbD 0 = e.haltPending ∧
    (broadcastFlags e).getLsbD 1 = e.goPending.isSome ∧ (broadcastFlags e).toNat < 4 := by
  unfold broadcastFlags
  cases e.haltPending <;> cases e.goPending.isSome <;> decide

theorem maskByte_bits (m : Masks) : (maskByte m).getLsbD 0 = m.fault ∧ (maskByte m).getLsbD 1 = m.timing ∧
    (maskByte m).getLsbD 2 = m.flow ∧ (maskByte m).getLsbD 3 = m.link ∧ (maskByte m).toNat < 16 := by
  unfold maskByte
  cases m.fault <;> cases m.timing <;> cases m.flow <;> cases m.link <;> decide

end Sys2Proof.Machine
end

section
/-!
O20: the REPORT and STATUS records.
-/

namespace Sys2Proof.Machine

variable (s : State) (r : RobotNo)

/-! ### The robot state record -/

/-- The two deferred fields of a robot state record. -/
theorem deferredFields_eq : ∃ c z, s.deferredFields r = [c, z] ∧
    match s.deferred.find? fun d => d.record.robot = r with
    | some d => c = byteOf d.count ∧ z = 10
    | none => c = 0 ∧ z = 0 := by
  unfold State.deferredFields
  cases s.deferred.find? fun d => d.record.robot = r with
  | none => exact ⟨0, 0, rfl, rfl, rfl⟩
  | some d => exact ⟨_, _, rfl, rfl, rfl⟩

theorem reportedMember_eq {w : Wave} (hw : s.wave = some w) (active : w.state ≠ .done) : s.reportedMember r =
    (w.members.find? fun m => m.robot = r).map fun m => (w.number, m) := by
  have isActive : w.state.active = true := by
    revert active
    cases w.state <;> simp [WaveState.active]
  unfold State.reportedMember
  rw [hw]
  dsimp only
  rw [if_pos isActive]
  cases w.members.find? fun m => m.robot = r <;> rfl

theorem reportedMember_none (h : ∀ w, s.wave = some w → w.state ≠ .done → ∀ m ∈ w.members, m.robot ≠ r) :
    s.reportedMember r = none := by
  cases hw : s.wave with
  | none => simp [State.reportedMember, hw]
  | some w =>
    by_cases done : w.state = .done
    · simp [State.reportedMember, hw, done, WaveState.active]
    · rw [reportedMember_eq s r hw done, List.find?_eq_none.2 fun m hm => by simpa using h w hw done m hm]
      rfl

/-- The three member fields of a robot state record. -/
theorem memberFields_eq : ∃ k n x, s.memberFields r = k :: (le16 n ++ le16 x) ∧
    (∀ w m, s.wave = some w → w.state ≠ .done → (w.members.find? fun q => q.robot = r) = some m →
      k = m.kind.code ∧ n = w.number ∧ x = if (s.robot r).slot = .moving then m.remaining else 0) ∧
    ((∀ w, s.wave = some w → w.state ≠ .done → ∀ m ∈ w.members, m.robot ≠ r) → k = 0 ∧ n = 0 ∧ x = 0) := by
  unfold State.memberFields
  cases h : s.reportedMember r with
  | none =>
    refine ⟨0, 0, 0, rfl, fun w m hw active hm => ?_, fun _ => ⟨rfl, rfl, rfl⟩⟩
    rw [reportedMember_eq s r hw active, hm] at h
    cases h
  | some nm =>
    obtain ⟨n, m⟩ := nm
    refine ⟨_, _, _, rfl, fun w q hw active hq => ?_, fun none => ?_⟩
    · rw [reportedMember_eq s r hw active, hq] at h
      cases h
      exact ⟨rfl, rfl, rfl⟩
    · rw [reportedMember_none s r none] at h
      cases h

/-- The robot state record of a present robot, its deferred and member fields given. -/
def presentState (b : Robot) (c z k : Byte) (openKind : Byte) (n x : Half) : List Byte :=
  [boolByte b.static.present, lineCode b.static.line, b.static.drop, recordFlags b.static, b.slot.code, b.rest.code,
    boolByte (decide (b.slot = .idle)), boolByte b.reportedValid] ++ positionBytes b.believed ++ pairBytes b.reported ++
    [b.fault, byteOf b.stack.length, b.lastOutcome.code, b.lastReason.code, openKind] ++ [c, z] ++
    k :: (le16 n ++ le16 x)

theorem robotStateBytes_present (present : (s.robot r).slot ≠ .absent) {c z k : Byte} {n x : Half}
    (deferred : s.deferredFields r = [c, z]) (member : s.memberFields r = k :: (le16 n ++ le16 x)) :
    robotStateBytes s r = presentState (s.robot r) c z k (s.openKind r) n x := by
  unfold robotStateBytes
  dsimp only
  rw [if_neg present, deferred, member, presentState]

/-- The places of the fields of a present robot's state record (10.5). -/
theorem presentState_fields (b : Robot) (c z k openKind : Byte) (n x : Half) (rest : List Byte) :
    let P := presentState b c z k openKind n x ++ rest
    u8 P 0 = boolByte b.static.present ∧ u8 P 1 = byteOf b.static.line.val ∧ u8 P 2 = b.static.drop ∧
      u8 P 3 = recordFlags b.static ∧ u8 P 5 = b.rest.code ∧ u8 P 6 = boolByte (decide (b.slot = .idle)) ∧
      u8 P 7 = boolByte b.reportedValid ∧ u32 P 8 = b.believed.angles.hub ∧ u32 P 12 = b.believed.angles.elbow ∧
      u32 P 16 = b.believed.steps.hub ∧ u32 P 20 = b.believed.steps.elbow ∧ u32 P 24 = b.reported.hub ∧
      u32 P 28 = b.reported.elbow ∧ u8 P 32 = b.fault ∧ u8 P 33 = byteOf b.stack.length ∧ u8 P 36 = openKind ∧
      u8 P 37 = c ∧ u8 P 38 = z ∧ u8 P 39 = k ∧ u16 P 40 = n ∧ u16 P 42 = x :=
  ⟨rfl, rfl, rfl, rfl, rfl, rfl, rfl, u32_bytes b.believed.angles.hub, u32_bytes b.believed.angles.elbow,
    u32_bytes b.believed.steps.hub, u32_bytes b.believed.steps.elbow, u32_bytes b.reported.hub,
    u32_bytes b.reported.elbow, rfl, rfl, rfl, rfl, rfl, rfl, u16_bytes n, u16_bytes x⟩

theorem robotStateBytes_length : (robotStateBytes s r).length = 44 := by
  obtain ⟨c, z, deferred, -⟩ := deferredFields_eq s r
  obtain ⟨k, n, x, member, -⟩ := memberFields_eq s r
  unfold robotStateBytes
  dsimp only
  rw [deferred, member]
  split <;> rfl

theorem positionBytes_length (p : Position) : (positionBytes p).length = 16 := rfl

/-- The stack slots of a present robot are its stack's top four, padded with zero positions (R17). -/
theorem stackBytes_present {b : Robot} (h : b.slot ≠ .absent) : stackBytes b =
    (b.stack.take 4 ++ List.replicate (4 - b.stack.length) Position.zero).flatMap positionBytes := by
  rw [stackBytes, if_neg h]
  exact flatMap_padded Position.zero (by decide) b.stack 4

theorem stackBytes_length (b : Robot) : (stackBytes b).length = 64 := by
  by_cases h : b.slot = .absent
  · simp [stackBytes, h]
  · rw [stackBytes_present h, flatMap_length fun p _ => positionBytes_length p]
    simp only [List.length_append, List.length_take, List.length_replicate]
    omega

/-- The four fields of stack slot `i` (10.3). -/
theorem stackBytes_slot {b : Robot} (h : b.slot ≠ .absent) (pre : List Byte) {i : Nat} (hi : i < 4) :
    let p := b.stack.getD i Position.zero
    let P := pre ++ stackBytes b
    u32 P (pre.length + 16 * i) = p.angles.hub ∧ u32 P (pre.length + (16 * i + 4)) = p.angles.elbow ∧
      u32 P (pre.length + (16 * i + 8)) = p.steps.hub ∧ u32 P (pre.length + (16 * i + 12)) = p.steps.elbow := by
  have inside : i < (b.stack.take 4 ++ List.replicate (4 - b.stack.length) Position.zero).length := by
    simp only [List.length_append, List.length_take, List.length_replicate]
    omega
  have slot {o : Nat} (ho : o + 3 < 16) : u32 (pre ++ stackBytes b) (pre.length + (16 * i + o)) =
      u32 (positionBytes (b.stack.getD i Position.zero)) o := by
    rw [stackBytes_present h, Nat.mul_comm, ← List.append_nil (List.flatMap _ _), u32_record positionBytes_length _ _ inside ho,
      padded_getElem hi]
  exact ⟨(slot (o := 0) (by decide)).trans (u32_bytes _), (slot (by decide)).trans (u32_bytes _),
    (slot (by decide)).trans (u32_bytes _), (slot (by decide)).trans (u32_bytes _)⟩

/-- The REPORT of an ABSENT robot is zero but for three fields (R17). -/
theorem reportBytes_absent (h : (s.robot r).slot = .absent) : reportBytes s r = List.replicate 4 0 ++
    ((s.robot r).slot.code :: (List.replicate 29 0 ++
      ((s.robot r).lastOutcome.code :: (s.robot r).lastReason.code :: List.replicate 72 0))) := by
  unfold reportBytes robotStateBytes stackBytes
  dsimp only
  rw [if_pos h, if_pos h]
  rfl

theorem u8_cons (b : Byte) (bs : List Byte) (o : Nat) : u8 (b :: bs) o = if o = 0 then b else u8 bs (o - 1) := by
  cases o <;> rfl

/-- The REPORT payload of an ABSENT robot (log entry 22). -/
theorem report_absent (h : (s.robot r).slot = .absent) {i : Nat} (h1 : i ≠ 4) (h2 : i ≠ 34) (h3 : i ≠ 35) :
    u8 (reportBytes s r) i = 0 := by
  rw [reportBytes_absent s r h]
  simp only [u8_append, u8_cons, u8_replicate_zero, List.length_replicate]
  split
  · rfl
  · rw [if_neg (by omega)]
    split
    · rfl
    · rw [if_neg (by omega), if_neg (by omega)]

theorem reportBytes_length : (reportBytes s r).length = 108 := by
  rw [reportBytes, List.length_append, robotStateBytes_length, stackBytes_length]

/-- The stack entries of a REPORT (10.3). -/
theorem report_stack (present : (s.robot r).slot ≠ .absent) {i : Nat} (hi : i < 4) :
    let p := (s.robot r).stack.getD i Position.zero
    let P := reportBytes s r
    u32 P (44 + 16 * i) = p.angles.hub ∧ u32 P (48 + 16 * i) = p.angles.elbow ∧ u32 P (52 + 16 * i) = p.steps.hub ∧
      u32 P (56 + 16 * i) = p.steps.elbow := by
  have slot := stackBytes_slot present (robotStateBytes s r) hi
  rw [robotStateBytes_length] at slot
  dsimp only at slot ⊢
  rwa [show 48 + 16 * i = 44 + (16 * i + 4) by omega, show 52 + 16 * i = 44 + (16 * i + 8) by omega,
    show 56 + 16 * i = 44 + (16 * i + 12) by omega]

/-- The fields of a REPORT that stand whatever the robot's state. -/
theorem report_state : u8 (reportBytes s r) 4 = (s.robot r).slot.code ∧
    u8 (reportBytes s r) 34 = (s.robot r).lastOutcome.code ∧ u8 (reportBytes s r) 35 = (s.robot r).lastReason.code := by
  unfold reportBytes robotStateBytes
  dsimp only
  split <;> exact ⟨rfl, rfl, rfl⟩

/-- A REPORT request is answered with its record (R17). -/
theorem exec_report (ready : Ready s) :
    exec (.report (halfOf r.val)) s = .next (s.answer (halfOf r.val) 7 .ok (reportBytes s r)) :=
  exec_answer (f := bareFrame (halfOf r.val) 7) rfl ready (Nat.zero_le _) (by rw [serve, parse_report]; rfl)

/-! ### The status record -/

theorem lineBlock_length (e : Line) : (lineBlock e).length = 13 := rfl

/-- The four wave fields of a status record. -/
theorem statusWave_eq (w? : Option Wave) : ∃ n state mark undecided, statusWave w? =
    le16 n ++ [state] ++ le32 mark ++ le16 undecided ∧ match w? with
      | none => n = 0 ∧ state = 0 ∧ mark = 0 ∧ undecided = 0
      | some w => n = w.number ∧ state = w.state.code ∧ mark = w.startMark ∧
          undecided = halfOf (w.members.filter fun m => decide (m.outcome = .none)).length := by
  cases w? with
  | none => exact ⟨0, 0, 0, 0, rfl, rfl, rfl, rfl, rfl⟩
  | some w => exact ⟨_, _, _, _, rfl, rfl, rfl, rfl, rfl⟩

/-- What stands before the line blocks of a status record. -/
def statusHead : List Byte := le16 (halfOf s.openWave.length) ++ [byteOf s.deferred.length] ++ statusWave s.wave ++
  le32 s.epoch.counter ++ [s.epoch.lock.code] ++ le32 s.epoch.offset

/-- What stands after the line blocks of a status record. -/
def statusTail : List Byte := le16 s.trunk.badCheck ++ le16 s.trunk.overrun ++ le16 s.trunk.gapAbandoned ++
  [byteOf s.trunk.queue.length] ++ (s.events.recs.toList.map EventRec.count ++ [maskByte s.events.masks, s.events.attention])

theorem statusBytes_eq : statusBytes s = statusHead s ++ (s.lines.toList.flatMap lineBlock ++ statusTail s) := by
  simp only [statusBytes, statusHead, statusTail, List.append_assoc]

theorem statusHead_length : (statusHead s).length = 21 := by
  obtain ⟨n, state, mark, undecided, wave, -⟩ := statusWave_eq s.wave
  rw [statusHead, wave]; rfl

theorem lineBlocks_length : (s.lines.toList.flatMap lineBlock).length = 52 := by
  rw [flatMap_length fun e _ => lineBlock_length e, Vector.length_toList]

/-- The places of the fields before the line blocks. -/
theorem status_head :
    let P := statusBytes s
    u16 P 0 = halfOf s.openWave.length ∧ u8 P 2 = byteOf s.deferred.length ∧
      (match s.wave with
        | none => u16 P 3 = 0 ∧ u8 P 5 = 0 ∧ u32 P 6 = 0 ∧ u16 P 10 = 0
        | some w => u16 P 3 = w.number ∧ u8 P 5 = w.state.code ∧ u32 P 6 = w.startMark ∧
          u16 P 10 = halfOf (w.members.filter fun m => decide (m.outcome = .none)).length) ∧
      u32 P 12 = s.epoch.counter ∧ u8 P 16 = s.epoch.lock.code ∧ u32 P 17 = s.epoch.offset := by
  obtain ⟨n, state, mark, undecided, wave, hw⟩ := statusWave_eq s.wave
  dsimp only
  rw [statusBytes_eq, statusHead, wave]
  refine ⟨u16_bytes (halfOf s.openWave.length), rfl, ?_, u32_bytes s.epoch.counter, rfl, u32_bytes s.epoch.offset⟩
  revert hw
  cases s.wave with
  | none =>
    rintro ⟨rfl, rfl, rfl, rfl⟩
    exact ⟨u16_bytes 0, rfl, u32_bytes 0, u16_bytes 0⟩
  | some w =>
    rintro ⟨rfl, rfl, rfl, rfl⟩
    exact ⟨u16_bytes _, rfl, u32_bytes _, u16_bytes _⟩

/-- A field of the status record's part after the line blocks. -/
theorem status_tail (o : Nat) : u8 (statusBytes s) (73 + o) = u8 (statusTail s) o := by
  rw [statusBytes_eq, ← List.append_assoc]
  refine (congrArg (u8 _) ?_).trans (u8_append_right _ _ o)
  rw [List.length_append, statusHead_length, lineBlocks_length]

theorem status_tail16 (o : Nat) : u16 (statusBytes s) (73 + o) = u16 (statusTail s) o :=
  congrArg₂ (fun a b : Byte => a ++ b) (status_tail s (o + 1)) (status_tail s o)

/-- A field of a line's block of the status record. -/
theorem status_line (l : LineNo) {o : Nat} (ho : o < 13) :
    u8 (statusBytes s) (21 + 13 * l.val + o) = u8 (lineBlock (s.line l)) o := by
  have inside : l.val < s.lines.toList.length := by rw [Vector.length_toList]; exact l.isLt
  have block := u8_record lineBlock_length (statusHead s) (statusTail s) inside ho
  rw [← statusBytes_eq, statusHead_length] at block
  rw [Nat.add_assoc, Nat.mul_comm]
  exact block

theorem status_line16 (l : LineNo) {o : Nat} (ho : o + 1 < 13) :
    u16 (statusBytes s) (21 + 13 * l.val + o) = u16 (lineBlock (s.line l)) o :=
  congrArg₂ (fun a b : Byte => a ++ b) (status_line s l ho) (status_line s l (Nat.lt_of_succ_lt ho))

/-- A class count of the status record. -/
theorem status_class (c : EventClass) : u8 (statusTail s) (7 + c.idx.val) = (s.events.get c).count := by
  refine (u8_append_right (le16 s.trunk.badCheck ++ le16 s.trunk.overrun ++ le16 s.trunk.gapAbandoned ++
    [byteOf s.trunk.queue.length]) _ c.idx.val).trans ?_
  have inside : c.idx.val < (s.events.recs.toList.map EventRec.count).length := by
    rw [List.length_map, Vector.length_toList]; exact c.idx.isLt
  rw [u8_append, if_pos inside, u8, List.getD_eq_getElem _ _ inside, List.getElem_map]
  rfl

/-- The masks and the attention value of the status record. -/
theorem status_masks : u8 (statusTail s) 18 = maskByte s.events.masks ∧ u8 (statusTail s) 19 = s.events.attention := by
  have tail (o : Nat) : u8 (statusTail s) (7 + (11 + o)) = u8 [maskByte s.events.masks, s.events.attention] o := by
    refine (u8_append_right (le16 s.trunk.badCheck ++ le16 s.trunk.overrun ++ le16 s.trunk.gapAbandoned ++
      [byteOf s.trunk.queue.length]) _ (11 + o)).trans ?_
    refine (congrArg (u8 _) ?_).trans (u8_append_right _ _ o)
    rw [List.length_map, Vector.length_toList]
  exact ⟨tail 0, tail 1⟩

theorem statusBytes_length : (statusBytes s).length = 93 := by
  rw [statusBytes_eq, List.length_append, List.length_append, statusHead_length, lineBlocks_length]
  simp [statusTail]

/-- A STATUS request is answered with the status record (R169). -/
theorem exec_status (ready : Ready s) : exec (.status 0xFFFF) s = .next (s.answer 0xFFFF 23 .ok (statusBytes s)) := by
  refine exec_answer (f := bareFrame 0xFFFF 23) rfl ready (Nat.zero_le _) ?_
  have empty : s.hunting.trunk.queue = s.trunk.queue := ready.2.2.2.symm
  have same : statusBytes s.hunting = statusBytes s := by
    rw [statusBytes_eq, statusBytes_eq, statusTail, empty]; rfl
  rw [serve, parse_status, ← same]
  rfl

/-- Settles O20: each field of the two records is found at its place. -/
theorem reportAndStatus : Obligations.ReportAndStatus := by
  intro s
  refine ⟨fun ready r => ⟨reportBytes s r, exec_report s r ready, reportBytes_length s r, ?_⟩, exec_status s,
    statusBytes_length s, ?_⟩
  · obtain ⟨slot, outcome, reason⟩ := report_state s r
    refine ⟨slot, outcome, reason, fun absent i => report_absent s r absent, fun present => ?_⟩
    obtain ⟨c, z, deferred, hd⟩ := deferredFields_eq s r
    obtain ⟨k, n, x, member, hm, none⟩ := memberFields_eq s r
    have fields := presentState_fields (s.robot r) c z k (s.openKind r) n x (stackBytes (s.robot r))
    rw [← robotStateBytes_present s r present deferred member] at fields
    obtain ⟨f0, f1, f2, f3, f5, f6, f7, f8, f12, f16, f20, f24, f28, f32, f33, f36, f37, f38, f39, f40, f42⟩ := fields
    have flags := recordFlags_bits (s.robot r).static
    rw [← f3] at flags
    refine ⟨f0, f1, f2, flags, f5, f6, f7, f8, f12, f16, f20, f24, f28, f32, f33, f36, ?_, fun w m hw active found => ?_,
      fun away => ?_, fun i hi => report_stack s r present hi⟩
    · rw [← f37, ← f38] at hd
      exact hd
    · obtain ⟨hk, hn, hx⟩ := hm w m hw active found
      exact ⟨f39.trans hk, f40.trans hn, f42.trans hx⟩
    · obtain ⟨hk, hn, hx⟩ := none away
      exact ⟨f39.trans hk, f40.trans hn, f42.trans hx⟩
  · obtain ⟨h0, h2, hw, h12, h16, h17⟩ := status_head s
    obtain ⟨masks, attention⟩ := status_masks s
    refine ⟨h0, h2, hw, h12, h16, h17, fun l => ?_, (status_tail16 s 0).trans (u16_bytes s.trunk.badCheck),
      (status_tail16 s 2).trans (u16_bytes s.trunk.overrun), (status_tail16 s 4).trans (u16_bytes s.trunk.gapAbandoned),
      status_tail s 6, fun c => ?_, ?_, (status_tail s 19).trans attention⟩
    · have flags := broadcastFlags_bits (s.line l)
      rw [show broadcastFlags (s.line l) = _ from (status_line s l (o := 4) (by decide)).symm] at flags
      exact ⟨status_line s l (o := 0) (by decide), status_line s l (by decide), status_line s l (by decide),
        status_line s l (by decide), flags, (status_line16 s l (by decide)).trans (u16_bytes (s.line l).counters.transactions),
        (status_line16 s l (by decide)).trans (u16_bytes (s.line l).counters.retries),
        (status_line16 s l (by decide)).trans (u16_bytes (s.line l).counters.timeouts),
        (status_line16 s l (by decide)).trans (u16_bytes (s.line l).counters.garbled)⟩
    · rw [← status_class, ← status_tail, ← Nat.add_assoc]
    · rw [show u8 (statusBytes s) 91 = _ from (status_tail s 18).trans masks]
      exact maskByte_bits _

end Sys2Proof.Machine
end

section
/-!
O21: the READs.
-/

namespace Sys2Proof.Machine

variable (s : State)

/-! ### The widths of the records -/

theorem linkBytes_length (k : Link) : (linkBytes k).length = 14 := rfl

/-- The link slots of a record are its links, padded with zero links to six (R184). -/
theorem linkSlots_eq (ks : List Link) :
    linkSlots ks = (ks.take 6 ++ List.replicate (6 - ks.length) (⟨0, 0, 0, 0⟩ : Link)).flatMap linkBytes :=
  flatMap_padded (f := linkBytes) (width := 14) ⟨0, 0, 0, 0⟩ (by decide) ks 6

theorem linkSlots_length (ks : List Link) : (linkSlots ks).length = 84 := by
  rw [linkSlots_eq, flatMap_length fun k _ => linkBytes_length k]
  simp only [List.length_append, List.length_take, List.length_replicate]
  omega

theorem robotBytes_length (b : RobotStatic) : (robotBytes b).length = 152 := by
  rw [robotBytes, List.length_append, linkSlots_length]; rfl

theorem curveBytes_length (c : Curve) : (curveBytes c).length = 34 := by
  rw [curveBytes, flatMap_length fun h _ => le16_length h, Vector.length_toList]

theorem deferredBytes_length (d? : Option Deferral) : (deferredBytes d?).length = 23 := by
  cases d? with
  | none => rfl
  | some d => cases h : d.record.what <;> simp [deferredBytes, moveBytes, h, pairBytes]

theorem memberBytes_length (i : Nat) (m? : Option Member) : (memberBytes i m?).length = 14 := by
  cases m? <;> rfl

theorem waveSummary_length (w? : Option Wave) : (waveSummary w?).length = 23 := by
  cases w? <;> rfl

/-- Every record of a readable table has its table's width (10.4, 10.5). -/
theorem recordAt_length {table : Byte} {size width : Nat} (shape : readShape table = some (size, width)) {i : Nat}
    (hi : i < size) : (recordAt s table i).length = width := by
  unfold readShape at shape
  unfold recordAt
  split at shape <;> cases shape
  · rw [index?_of_lt hi]; exact robotBytes_length _
  · rw [index?_of_lt hi]; exact curveBytes_length _
  · rw [index?_of_lt hi]; rfl
  · rw [index?_of_lt hi]; rfl
  · rw [index?_of_lt hi]; rfl
  · rfl
  · rw [index?_of_lt hi]; exact robotStateBytes_length s _
  · rw [index?_of_lt hi]; rfl
  · exact deferredBytes_length _
  · exact memberBytes_length _ _

/-- What a READ returns before its records is as long as its kind says (R167). -/
theorem readLead_length (table : Byte) :
    (if table.toNat = 10 then waveSummary s.wave else []).length = readLead table := by
  unfold readLead
  split
  · exact waveSummary_length _
  · rfl

/-! ### The answer of a READ -/

variable {s} {c : Instr} {table : Byte} {first count : Half} {size width lead : Nat}

/-- A READ is checked for its range, then for its length, and answered with its payload (R167). -/
theorem exec_read (ready : Ready s) (hc : requestFrame c = some (readFrame 0xFFFF table first count))
    (shape : readShape table = some (size, width)) (hl : readLead table = lead) : exec c s = .next (
      if count.toNat = 0 ∨ size < first.toNat + count.toNat then s.deny 0xFFFF 17 .index
      else if 512 < lead + count.toNat * width then s.deny 0xFFFF 17 .length
      else s.answer 0xFFFF 17 .ok (readPayload s table first.toNat count.toNat)) := by
  have short : (readFrame 0xFFFF table first count).payload.length ≤ Config.payloadMax := by
    simp [readFrame, le16, Config.payloadMax]
  have served : serve s.hunting (readFrame 0xFFFF table first count) = serveRead s.hunting table first count := by
    rw [serve, parse_read]; rfl
  unfold serveRead at served
  rw [shape, hl] at served
  dsimp only at served
  split
  · rename_i h
    rw [if_pos h] at served
    exact exec_answer hc ready short served
  · rename_i h
    rw [if_neg h] at served
    split
    · rename_i long
      exact exec_answer hc ready short (served.trans (if_pos long))
    · rename_i fits
      exact exec_answer hc ready short (served.trans (if_neg fits))

/-- The payload of a READ within its table is its records in turn, after the wave summary of kind WAVE (R167). -/
theorem readPayload_records (s : State) (shape : readShape table = some (size, width)) (hl : readLead table = lead)
    {first count : Nat} (fits : first + count ≤ size) : (readPayload s table first count).length = lead + count * width ∧
      ∀ i, i < count → ((readPayload s table first count).drop (lead + i * width)).take width =
        recordAt s table (first + i) := by
  have widths : ∀ i ∈ runOf first count, (recordAt s table i).length = width := by
    intro i hi
    obtain ⟨k, hk, rfl⟩ := List.mem_map.1 hi
    exact recordAt_length s shape (by rw [List.mem_range] at hk; omega)
  have run : (runOf first count).length = count := by simp [runOf]
  have leads := (readLead_length s table).trans hl
  refine ⟨by rw [readPayload, List.length_append, leads, flatMap_length widths, run], fun i hi => ?_⟩
  rw [readPayload, ← leads, ← List.drop_drop, List.drop_left, flatMap_record widths (by rw [run]; exact hi)]
  simp [runOf]

/-! ### The read-only records -/

variable (s)

theorem recordAt_robotState (r : RobotNo) : recordAt s 7 r.val = robotStateBytes s r := by
  show (match index? 480 r.val with | some r => robotStateBytes s r | none => []) = _
  rw [index?_of_lt r.isLt]

theorem recordAt_zoneState (z : ZoneId) : recordAt s 8 z.val = zoneStateBytes (s.zone z) := by
  show (match index? 1024 z.val with | some z => zoneStateBytes (s.zone z) | none => []) = _
  rw [index?_of_lt z.isLt]

/-- The payload of a reply is known from the state that sends it. -/
theorem answer_payload {d : Half} {k : Byte} {st : Status} {P Q : List Byte}
    (h : s.answer d k st P = s.answer d k st Q) : P = Q := by
  have disp : Dispatching.replying (replyIn s d k st P) = .replying (replyIn s d k st Q) :=
    congrArg (fun t : State => t.trunk.disp) h
  exact congrArg Reply.payload (Dispatching.replying.inj disp)

/-- A robot's state record is the beginning of its REPORT (R17). -/
theorem robotState_of_report (ready : Ready s) {r : RobotNo} {P : List Byte}
    (h : exec (.report (halfOf r.val)) s = .next (s.answer (halfOf r.val) 7 .ok P)) : recordAt s 7 r.val = P.take 44 := by
  have payload : P = reportBytes s r := answer_payload s (Host.Outcome.next.inj (h.symm.trans (exec_report s r ready)))
  rw [payload, recordAt_robotState, reportBytes, ← robotStateBytes_length s r, List.take_left]

/-! ### Free values -/

theorem freeByte_toNat {low high : Nat} (h : low ≤ high) (hb : high < 256) (n : Nat) :
    low ≤ (freeByte low high n).toNat ∧ (freeByte low high n).toNat ≤ high := by
  have := Nat.mod_lt n (show 0 < high - low + 1 by omega)
  simp only [freeByte, byteOf, BitVec.toNat_ofNat]
  omega

/-- Each code of the list is a reason's. -/
theorem reasonCodes_defined : ∀ b ∈ reasonCodes, ∃ why : Reason, b = why.code := by
  have codes : reasonCodes = [Reason.none, .absent, .disabled, .lineDown, .uncertain, .empty, .fenced, .long, .range, .zone,
    .expired, .overflow, .refused, .mismatch, .lostSeg, .drift, .lineReset, .locked, .badAddr, .duplicate, .badLimit,
    .badGear, .badLink, .badHome, .active, .noWave, .notFound, .length, .kind, .dest, .index].map Reason.code := by decide
  intro b hb
  rw [codes, List.mem_map] at hb
  exact hb.imp fun _ h => h.2.symm

theorem freeIn_mem {values : List Byte} (h : values ≠ []) (n : Nat) : freeIn values n ∈ values := by
  have inside : n % values.length < values.length := Nat.mod_lt _ (List.length_pos_iff.2 h)
  rw [freeIn, List.getD_eq_getElem _ _ inside]
  exact List.getElem_mem inside

/-! ### The records with free values -/

/-- The wave summary with no record (log entry 14). -/
theorem emptySummary_fields : let S := emptySummary
    u16 S 0 = 0 ∧ u8 S 2 = 0 ∧ (u8 S 3 = 1 ∨ u8 S 3 = 2) ∧ u32 S 4 = 0 ∧ (u8 S 9).toNat ≤ 7 ∧ u16 S 19 = 0 ∧
      u16 S 21 = 0 := by
  refine ⟨rfl, rfl, ?_, rfl, (freeByte_toNat (by decide) (by decide) _).2, rfl, rfl⟩
  have origin := freeByte_toNat (low := 1) (high := 2) (by decide) (by decide) (Config.unstatedSummary 3)
  show freeByte 1 2 _ = 1 ∨ freeByte 1 2 _ = 2
  bv_omega

/-- The wave summary of a record (R89). -/
theorem waveSummary_fields (w : Wave) : let S := waveSummary (some w)
    u16 S 0 = w.number ∧ u8 S 2 = w.state.code ∧ u8 S 3 = w.origin.code ∧ u32 S 4 = w.startMark ∧
      u8 S 8 = w.lead ∧ u8 S 9 = w.chainRemaining ∧ u8 S 10 = w.chainLead ∧ u16 S 11 = halfOf w.counts.admitted ∧
      u16 S 13 = halfOf w.counts.deferred ∧ u16 S 15 = halfOf w.counts.dropped ∧ u16 S 17 = halfOf w.counts.null ∧
      u16 S 19 = halfOf w.members.length ∧
      u16 S 21 = halfOf (w.members.filter fun m => decide (m.outcome = .none)).length :=
  ⟨u16_bytes w.number, rfl, rfl, u32_bytes w.startMark, rfl, rfl, rfl, u16_bytes (halfOf w.counts.admitted),
    u16_bytes (halfOf w.counts.deferred), u16_bytes (halfOf w.counts.dropped), u16_bytes (halfOf w.counts.null),
    u16_bytes (halfOf w.members.length), u16_bytes (halfOf w.undecided)⟩

/-- A WAVE position beyond the members (log entry 29). -/
theorem emptyPosition_fields (i : Nat) : let R := emptyPosition i
    u16 R 0 = 0xFFFF ∧ (u8 R 2).toNat ≤ 3 ∧ (u8 R 3).toNat ≤ 3 ∧ (u8 R 5).toNat ≤ 6 ∧
      (1 ≤ (u8 R 6).toNat ∧ (u8 R 6).toNat ≤ 5) ∧ (u8 R 7).toNat ≤ 1 ∧ (u8 R 8).toNat ≤ 12 ∧
      ∃ why : Reason, u8 R 9 = why.code :=
  ⟨u16_bytes (robotField none), (freeByte_toNat (by decide) (by decide) _).2, (freeByte_toNat (by decide) (by decide) _).2,
    (freeByte_toNat (by decide) (by decide) _).2, freeByte_toNat (by decide) (by decide) _,
    (freeByte_toNat (by decide) (by decide) _).2, (freeByte_toNat (by decide) (by decide) _).2,
    reasonCodes_defined _ (freeIn_mem (by decide) _)⟩

/-- The WAVE entry of a member (R89). -/
theorem memberBytes_fields (i : Nat) (m : Member) : let R := memberBytes i (some m)
    u16 R 0 = halfOf m.robot.val ∧ u8 R 2 = m.kind.code ∧ u8 R 3 = byteOf m.line.val ∧ u8 R 4 = m.drop ∧
      u8 R 5 = m.rest.code ∧ u8 R 6 = m.delivery.code ∧ u8 R 7 = boolByte m.late ∧ u8 R 8 = m.outcome.code ∧
      u8 R 9 = m.reason.code ∧ u16 R 10 = (match m.plan.body with | .segment g => g.n | .home _ _ => 0) ∧
      u16 R 12 = m.remaining :=
  ⟨u16_bytes (halfOf m.robot.val), rfl, rfl, rfl, rfl, rfl, rfl, rfl, rfl, u16_bytes m.plan.n, u16_bytes m.remaining⟩

/-! ### ZONE_STATE and DEFERRED -/

/-- A ZONE_STATE record, its holder given (R60). -/
theorem zoneState_fields (e : Zone) : let R := zoneStateBytes e
    u16 R 0 = robotField e.memberA ∧ u16 R 2 = robotField e.memberB ∧ u8 R 4 = e.holder.code ∧
      u16 R 5 = robotField e.holder.robot? :=
  ⟨u16_bytes (robotField e.memberA), u16_bytes (robotField e.memberB), rfl, u16_bytes (robotField e.holder.robot?)⟩

/-- A DEFERRED position beyond the list (R67). -/
theorem deferredBytes_none : u16 (deferredBytes none) 0 = 0xFFFF ∧ ∀ j, 2 ≤ j → u8 (deferredBytes none) j = 0 := by
  refine ⟨rfl, fun j hj => ?_⟩
  rw [deferredBytes, u8_append, if_neg (by simp only [List.length_cons, List.length_nil]; omega)]
  exact u8_replicate_zero _ _

/-- The fields of a DEFERRED record that every kind of move has (R67). -/
theorem deferredBytes_head (d : Deferral) : let R := deferredBytes (some d)
    u16 R 0 = halfOf d.record.robot.val ∧ u8 R 2 = d.record.what.kind.code ∧ u8 R 3 = byteOf d.record.profile.val ∧
      u8 R 4 = byteOf d.count ∧ u8 R 5 = 10 :=
  ⟨u16_bytes (halfOf d.record.robot.val), rfl, rfl, rfl, rfl⟩

/-- The fields of a DEFERRED record of its move's kind (R67). -/
theorem deferredBytes_move (d : Deferral) : let R := deferredBytes (some d)
    match d.record.what with
    | .goto g => u32 R 6 = g.angles.hub ∧ u32 R 10 = g.angles.elbow ∧ u32 R 14 = g.steps.hub ∧
      u32 R 18 = g.steps.elbow ∧ (u8 R 22).getLsbD 0 = g.hubClamped ∧ (u8 R 22).getLsbD 1 = g.elbowClamped ∧
      (u8 R 22).toNat < 4
    | .retrace => ∀ j, 6 ≤ j → u8 R j = 0
    | .home => ∀ j, 6 ≤ j → u8 R j = 0 := by
  have zeros (pre : List Byte) (n j : Nat) (h : pre.length ≤ j) : u8 (pre ++ List.replicate n 0) j = 0 := by
    rw [u8_append, if_neg (by omega)]
    exact u8_replicate_zero _ _
  dsimp only [deferredBytes]
  cases d.record.what with
  | goto g =>
    exact ⟨u32_bytes g.angles.hub, u32_bytes g.angles.elbow, u32_bytes g.steps.hub, u32_bytes g.steps.elbow,
      replyFlags_bits g.hubClamped g.elbowClamped⟩
  | retrace => exact fun j hj => zeros _ 17 j hj
  | home => exact fun j hj => zeros _ 17 j hj

theorem waveSummary_of_payload (first count : Nat) : (readPayload s 10 first count).take 23 = waveSummary s.wave := by
  show (waveSummary s.wave ++ _).take 23 = _
  rw [← waveSummary_length s.wave, List.take_left]

/-- Settles O21: the checks and runs of every READ, then the read-only records. -/
theorem readsAnswer : Obligations.ReadsAnswer := by
  refine ⟨fun s first count ready => ?_, fun s => ⟨fun ready r P => robotState_of_report s ready, fun z => ?_, fun i => ?_,
    fun first count => ?_, fun i => ?_⟩⟩
  · have read {c : Instr} {table : Byte} {size width lead : Nat}
        (hc : requestFrame c = some (readFrame 0xFFFF table first count)) (shape : readShape table = some (size, width))
        (hl : readLead table = lead) := And.intro (exec_read ready hc shape hl)
      fun fits : first.toNat + count.toNat ≤ size => readPayload_records s shape hl fits
    exact ⟨read rfl rfl rfl, read rfl rfl rfl, read rfl rfl rfl, read rfl rfl rfl, read rfl rfl rfl, read rfl rfl rfl,
      read rfl rfl rfl, read rfl rfl rfl, read rfl rfl rfl, read rfl rfl rfl⟩
  · have fields := zoneState_fields (s.zone z)
    rw [← recordAt_zoneState s z] at fields
    obtain ⟨a, b, code, robot⟩ := fields
    refine ⟨a, b, ?_⟩
    cases h : (s.zone z).holder <;> rw [h] at code robot <;> exact ⟨code, robot⟩
  · have record : recordAt s 9 i = deferredBytes s.deferred[i]? := rfl
    rw [record]
    cases s.deferred[i]? with
    | none => exact deferredBytes_none
    | some d =>
      obtain ⟨h0, h2, h3, h4, h5⟩ := deferredBytes_head d
      exact ⟨h0, h2, h3, h4, h5, deferredBytes_move d⟩
  · rw [waveSummary_of_payload]
    cases s.wave with
    | none => exact emptySummary_fields
    | some w => exact waveSummary_fields w
  · have record : recordAt s 10 i = memberBytes i s.members[i]? := rfl
    rw [record]
    cases s.members[i]? with
    | none => exact emptyPosition_fields i
    | some m => exact memberBytes_fields i m

end Sys2Proof.Machine
end

section
/-!
O26: records read back as they are held.
-/

namespace Sys2Proof.Machine

variable {s : State}

/-! ### A READ of one record -/

theorem halfOf_toNat {i : Nat} (h : i < 65536) : (halfOf i).toNat = i := by
  simp only [halfOf, BitVec.toNat_ofNat]
  omega

/-- A READ of one record of a loadable kind is answered with it. -/
theorem exec_readOne (ready : Ready s) {c : Instr} {table : Byte} {size width i : Nat} (hi : i < size) (hs : size ≤ 1024)
    (hc : requestFrame c = some (readFrame 0xFFFF table (halfOf i) 1)) (shape : readShape table = some (size, width))
    (hw : width ≤ 512) (loadable : table.toNat ≠ 10) :
    exec c s = .next (s.answer 0xFFFF 17 .ok (recordAt s table i)) := by
  have index : (halfOf i).toNat = i := halfOf_toNat (by omega)
  have payload : readPayload s table i 1 = recordAt s table i := by
    simp [readPayload, loadable, runOf, List.range_succ]
  rw [exec_read ready hc shape (if_neg loadable), index, if_neg (by simp; omega), if_neg (by simp; omega)]
  exact congrArg (fun P => Host.Outcome.next (s.answer 0xFFFF 17 .ok P)) payload

/-! ### Codes -/

theorem readBool_boolByte (b : Bool) : readBool (boolByte b) = b := by cases b <;> rfl

theorem lineCode_index (l : LineNo) : index? 4 (lineCode l).toNat = some l := by
  have h : (lineCode l).toNat = l.val := by
    have := l.isLt
    simp only [lineCode, byteOf, BitVec.toNat_ofNat]; omega
  rw [h, index?_of_lt l.isLt]

theorem fenceMode_code (m : FenceMode) : fenceMode? m.code = some m := by cases m <;> rfl

theorem epochMode_code (m : EpochMode) : epochMode? m.code = some m := by cases m <;> rfl

theorem zoneField_index (z : ZoneId) : index? 1024 (halfOf z.val).toNat = some z := by
  rw [halfOf_toNat (by have := z.isLt; omega), index?_of_lt z.isLt]

theorem memberField_robotField (r : Option RobotNo) : memberField (robotField r) = some r := by
  cases r with
  | none => rfl
  | some r =>
    have number : (halfOf r.val).toNat = r.val := halfOf_toNat (by have := r.isLt; omega)
    have present : robotField (some r) ≠ 0xFFFF := by
      intro h
      have all : (halfOf r.val).toNat = 65535 := congrArg BitVec.toNat h
      have := r.isLt
      omega
    rw [memberField, if_neg present]
    show (match index? 480 (halfOf r.val).toNat with | some r => some (some r) | none => none) = _
    rw [index?_robot]

/-! ### Records -/

/-- A link slot as a record carries it. -/
def Link.raw (k : Link) : RawLink := ⟨halfOf k.zone.val, k.ws, k.we, k.thr⟩

theorem linkOf_raw (k : Link) : linkOf k.raw = some k := by
  unfold linkOf Link.raw
  rw [zoneField_index]

/-- Word `i` of a run of four-byte fields. -/
theorem u32_words (pre post : List Byte) {ws : List Word} {i : Nat} (hi : i < ws.length) :
    u32 (pre ++ (ws.flatMap le32 ++ post)) (pre.length + (i * 4 + 0)) = ws[i] :=
  (u32_record le32_length pre post hi (by decide)).trans (u32_bytes ws[i])

/-- The words of a ROBOT record before its fence mode. -/
def gearWords (b : RobotStatic) : List Word :=
  [b.gearHub, b.gearElbow, b.coupling, b.offHub, b.offElbow, b.hubMin, b.hubMax, b.elbowMin, b.elbowMax]

/-- The words of a ROBOT record after its link count. -/
def homeWords (b : RobotStatic) : List Word :=
  [b.fs, b.fe, b.homeAngles.hub, b.homeAngles.elbow, b.homeSteps.hub, b.homeSteps.elbow]

/-- The bytes of a ROBOT record before its words. -/
def robotLead (b : RobotStatic) : List Byte :=
  [boolByte b.present, lineCode b.line, b.drop, recordFlags b, b.hubCurve, b.elbowCurve]

/-- What stands before the second words of a ROBOT record. -/
def robotMiddle (b : RobotStatic) : List Byte :=
  robotLead b ++ ((gearWords b).flatMap le32 ++ [b.fenceMode.code, byteOf b.links.length])

/-- What stands before the link slots of a ROBOT record. -/
def robotHead (b : RobotStatic) : List Byte := robotMiddle b ++ (homeWords b).flatMap le32

theorem robotBytes_eq (b : RobotStatic) : robotBytes b = robotHead b ++ linkSlots b.links := by
  simp only [robotBytes, robotHead, robotMiddle, robotLead, gearWords, homeWords, pairBytes, List.flatMap_cons,
    List.flatMap_nil, List.append_assoc, List.append_nil]

theorem robotMiddle_length (b : RobotStatic) : (robotMiddle b).length = 44 := by
  simp [robotMiddle, robotLead, gearWords]

theorem robotHead_length (b : RobotStatic) : (robotHead b).length = 68 := by
  simp [robotHead, robotMiddle_length, homeWords]

theorem robot_lead (b : RobotStatic) (o : Nat) (h : o < 6) : u8 (robotBytes b) o = u8 (robotLead b) o := by
  have lead : (robotLead b).length = 6 := rfl
  rw [robotBytes_eq, robotHead, robotMiddle, List.append_assoc, List.append_assoc, u8_append, if_pos (lead ▸ h)]

theorem robot_gear (b : RobotStatic) : let P := robotBytes b
    u32 P 6 = b.gearHub ∧ u32 P 10 = b.gearElbow ∧ u32 P 14 = b.coupling ∧ u32 P 18 = b.offHub ∧ u32 P 22 = b.offElbow ∧
      u32 P 26 = b.hubMin ∧ u32 P 30 = b.hubMax ∧ u32 P 34 = b.elbowMin ∧ u32 P 38 = b.elbowMax := by
  have word (i : Nat) (hi : i < 9) : u32 (robotBytes b) (6 + (i * 4 + 0)) = (gearWords b)[i]'hi := by
    rw [robotBytes_eq, robotHead, robotMiddle, List.append_assoc, List.append_assoc, List.append_assoc]
    exact u32_words (robotLead b) _ hi
  exact ⟨word 0 (by decide), word 1 (by decide), word 2 (by decide), word 3 (by decide), word 4 (by decide),
    word 5 (by decide), word 6 (by decide), word 7 (by decide), word 8 (by decide)⟩

theorem robot_home (b : RobotStatic) : let P := robotBytes b
    u32 P 44 = b.fs ∧ u32 P 48 = b.fe ∧ u32 P 52 = b.homeAngles.hub ∧ u32 P 56 = b.homeAngles.elbow ∧
      u32 P 60 = b.homeSteps.hub ∧ u32 P 64 = b.homeSteps.elbow := by
  have word (i : Nat) (hi : i < 6) : u32 (robotBytes b) (44 + (i * 4 + 0)) = (homeWords b)[i]'hi := by
    rw [robotBytes_eq, robotHead, List.append_assoc, ← robotMiddle_length b]
    exact u32_words (robotMiddle b) _ hi
  exact ⟨word 0 (by decide), word 1 (by decide), word 2 (by decide), word 3 (by decide), word 4 (by decide),
    word 5 (by decide)⟩

theorem robot_codes (b : RobotStatic) :
    u8 (robotBytes b) 42 = b.fenceMode.code ∧ u8 (robotBytes b) 43 = byteOf b.links.length := by
  have front : (robotLead b ++ (gearWords b).flatMap le32).length = 42 := by simp [robotLead, gearWords]
  have code (o : Nat) : u8 (robotBytes b) (42 + o) = u8 ([b.fenceMode.code, byteOf b.links.length] ++
      ((homeWords b).flatMap le32 ++ linkSlots b.links)) o := by
    rw [robotBytes_eq, robotHead, robotMiddle, ← List.append_assoc, List.append_assoc, List.append_assoc, ← front]
    exact u8_append_right _ _ o
  exact ⟨code 0, code 1⟩

/-- Link slot `i` of a ROBOT record. -/
theorem rawLink_robotBytes {b : RobotStatic} (six : b.links.length ≤ 6) {i : Nat} (hi : i < b.links.length) :
    rawLink (robotBytes b) i = b.links[i].raw := by
  have inside : i < (b.links.take 6 ++ List.replicate (6 - b.links.length) (⟨0, 0, 0, 0⟩ : Link)).length := by
    simp only [List.length_append, List.length_take, List.length_replicate]
    omega
  have slot : (b.links.take 6 ++ List.replicate (6 - b.links.length) (⟨0, 0, 0, 0⟩ : Link))[i] = b.links[i] := by
    rw [padded_getElem (by omega), List.getD_eq_getElem _ _ hi]
  have bytes : robotBytes b = robotHead b ++
      ((b.links.take 6 ++ List.replicate (6 - b.links.length) (⟨0, 0, 0, 0⟩ : Link)).flatMap linkBytes ++ []) := by
    rw [robotBytes_eq, linkSlots_eq, List.append_nil]
  have head := robotHead_length b
  have zone := u16_record linkBytes_length (robotHead b) [] inside (o := 0) (by decide)
  have word {o : Nat} (ho : o + 3 < 14) := u32_record linkBytes_length (robotHead b) [] inside ho
  rw [← bytes, slot, head, Nat.mul_comm] at zone
  simp only [← bytes, slot, head, Nat.mul_comm i, ← Nat.add_assoc] at word
  rw [rawLink, Link.raw, RawLink.mk.injEq]
  exact ⟨zone.trans (u16_bytes (halfOf b.links[i].zone.val)), (word (by decide)).trans (u32_bytes b.links[i].ws),
    (word (by decide)).trans (u32_bytes b.links[i].we), (word (by decide)).trans (u32_bytes b.links[i].thr)⟩

theorem rawRobot_links (bs : List Byte) :
    (rawRobot bs).links = (List.range (min (u8 bs 43).toNat 6)).map (rawLink bs) := rfl

/-- The links of a ROBOT record. -/
theorem rawLinks_robotBytes {b : RobotStatic} (six : b.links.length ≤ 6) :
    (rawRobot (robotBytes b)).links = b.links.map Link.raw := by
  have count : (u8 (robotBytes b) 43).toNat = b.links.length := by
    rw [(robot_codes b).2]
    simp only [byteOf, BitVec.toNat_ofNat]
    omega
  rw [rawRobot_links, count, Nat.min_eq_left six]
  refine List.ext_getElem (by simp) fun i h1 h2 => ?_
  simp only [List.length_map] at h2
  simp only [List.getElem_map, List.getElem_range]
  exact rawLink_robotBytes six h2

/-- The fields of a ROBOT record before its links. -/
theorem rawRobot_robotBytes (b : RobotStatic) : rawRobot (robotBytes b) =
    { present := readBool (boolByte b.present), line := lineCode b.line, drop := b.drop, flags := recordFlags b,
      hubCurve := b.hubCurve, elbowCurve := b.elbowCurve, gearHub := b.gearHub, gearElbow := b.gearElbow,
      coupling := b.coupling, offHub := b.offHub, offElbow := b.offElbow, hubMin := b.hubMin, hubMax := b.hubMax,
      elbowMin := b.elbowMin, elbowMax := b.elbowMax, fenceMode := b.fenceMode.code, linkCount := byteOf b.links.length,
      fs := b.fs, fe := b.fe, homeAngles := b.homeAngles, homeSteps := b.homeSteps
      links := (rawRobot (robotBytes b)).links } := by
  obtain ⟨fence, count⟩ := robot_codes b
  have lead := robot_lead b
  obtain ⟨g0, g1, g2, g3, g4, g5, g6, g7, g8⟩ := robot_gear b
  obtain ⟨h0, h1, h2, h3, h4, h5⟩ := robot_home b
  generalize robotBytes b = bs at *
  rw [rawRobot, lead 0 (by decide), lead 1 (by decide), lead 2 (by decide), lead 3 (by decide), lead 4 (by decide),
    lead 5 (by decide), g0, g1, g2, g3, g4, g5, g6, g7, g8, fence, count, h0, h1, h2, h3, h4, h5]
  rfl

/-- A present robot's record is formed again from what a READ returns. -/
theorem static_robotBytes {b : RobotStatic} (present : b.present = true) (six : b.links.length ≤ 6) :
    (rawRobot (robotBytes b)).static = b := by
  obtain ⟨enable, priority, -⟩ := recordFlags_bits b
  have links : (b.links.map Link.raw).filterMap linkOf = b.links := by
    rw [List.filterMap_map, funext (f := linkOf ∘ Link.raw) linkOf_raw, List.filterMap_some]
  rw [rawRobot_robotBytes, rawLinks_robotBytes six, RawRobot.static]
  dsimp only
  rw [readBool_boolByte, if_pos present, lineCode_index, fenceMode_code, flagBit, flagBit, enable, priority, links,
    ← present]
  rfl

/-- An absent record reads as zeros (R1). -/
theorem robotBytes_absent : robotBytes RobotStatic.absent = List.replicate 152 0 := by decide

theorem rawCurve_curveBytes (c : Curve) : rawCurve (curveBytes c) = c := by
  refine Vector.ext fun i hi => ?_
  have inside : i < c.toList.length := by rw [Vector.length_toList]; exact hi
  have knot := u16_record le16_length [] [] inside (o := 0) (by decide)
  rw [List.append_nil, List.nil_append, List.length_nil, Nat.zero_add, Nat.add_zero, Nat.mul_comm] at knot
  rw [rawCurve, Vector.getElem_ofFn]
  exact knot.trans (u16_bytes c.toList[i])

theorem rawProfile_profileBytes (p : Profile) : rawProfile (profileBytes p) = p := by
  rw [rawProfile, Profile.mk.injEq]
  exact ⟨u16_bytes p.vHub, u16_bytes p.vElbow, u16_bytes p.nMin, u16_bytes p.grace, u32_bytes p.homeLimit⟩

theorem rawTiming_timingBytes (t : Timing) : rawTiming (timingBytes t) = t := by
  rw [rawTiming, Timing.mk.injEq]
  exact ⟨u16_bytes t.tCall, u16_bytes t.tBody, u16_bytes t.tShort, u16_bytes t.tRead, u16_bytes t.tTurn, u16_bytes t.tGap,
    rfl, rfl, u16_bytes t.pollPeriod, rfl⟩

/-! ### The loadable tables -/

variable (s)

theorem recordAt_robot (r : RobotNo) : recordAt s 1 r.val = robotBytes (s.robot r).static := by
  show (match index? 480 r.val with | some r => robotBytes (s.robot r).static | none => []) = _
  rw [index?_of_lt r.isLt]

theorem recordAt_curve (c : Fin 256) : recordAt s 2 c.val = curveBytes s.curves[c] := by
  show (match index? 256 c.val with | some c => curveBytes s.curves[c] | none => []) = _
  rw [index?_of_lt c.isLt]

theorem recordAt_profile (p : ProfileNo) : recordAt s 3 p.val = profileBytes (s.profile p) := by
  show (match index? 16 p.val with | some p => profileBytes (s.profile p) | none => []) = _
  rw [index?_of_lt p.isLt]

theorem recordAt_zone (z : ZoneId) : recordAt s 4 z.val = zoneBytes (s.zone z) := by
  show (match index? 1024 z.val with | some z => zoneBytes (s.zone z) | none => []) = _
  rw [index?_of_lt z.isLt]

theorem recordAt_timing (l : LineNo) : recordAt s 5 l.val = timingBytes (s.line l).timing := by
  show (match index? 4 l.val with | some l => timingBytes (s.line l).timing | none => []) = _
  rw [index?_of_lt l.isLt]

/-- Settles O26: each kind's bytes, read back field by field. -/
theorem recordsRoundTrip : Obligations.RecordsRoundTrip := by
  intro s
  have read {c : Instr} {table : Byte} {size width i : Nat} (hi : i < size) (hs : size ≤ 1024)
      (hc : requestFrame c = some (readFrame 0xFFFF table (halfOf i) 1)) (shape : readShape table = some (size, width))
      (hw : width ≤ 512) (loadable : table.toNat ≠ 10) (ready : Ready s) := exec_readOne ready hi hs hc shape hw loadable
  refine ⟨fun r => ⟨read r.isLt (by decide) rfl rfl (by decide) (by decide), fun present ok => ?_, fun absent => ?_⟩,
    fun c => ⟨read c.isLt (by decide) rfl rfl (by decide) (by decide), ?_⟩,
    fun p => ⟨read p.isLt (by decide) rfl rfl (by decide) (by decide), ?_⟩,
    fun z => ⟨read z.isLt (by decide) rfl rfl (by decide) (by decide), ?_, ?_⟩,
    fun l => ⟨read l.isLt (by decide) rfl rfl (by decide) (by decide), ?_⟩,
    read (i := 0) (by decide) (by decide) rfl rfl (by decide) (by decide), ?_⟩
  · obtain ⟨-, -, -, -, -, -, -, six, -⟩ := ok
    rw [recordAt_robot]
    exact static_robotBytes present six
  · rw [recordAt_robot, absent, robotBytes_absent]
  · rw [recordAt_curve, rawCurve_curveBytes]
  · rw [recordAt_profile, rawProfile_profileBytes]
  · rw [recordAt_zone, show u16 (zoneBytes (s.zone z)) 0 = robotField (s.zone z).memberA from u16_bytes _,
      memberField_robotField]
  · rw [recordAt_zone, show u16 (zoneBytes (s.zone z)) 2 = robotField (s.zone z).memberB from
      u16_bytes (robotField (s.zone z).memberB), memberField_robotField]
  · rw [recordAt_timing, rawTiming_timingBytes]
  · exact ⟨epochMode_code _, u32_bytes s.epoch.period, u32_bytes s.epoch.window, u32_bytes s.epoch.running⟩

end Sys2Proof.Machine
end

section
/-!
O24: a LOAD of robot records.
-/

namespace Sys2Proof.Machine

/-! ### The records of a load -/

/-- A ROBOT record is read from its first 152 bytes (10.4). -/
theorem rawRobot_take (bs : List Byte) : rawRobot (bs.take 152) = rawRobot bs := by
  have links : (List.range (min (u8 bs 43).toNat 6)).map (rawLink (bs.take 152)) =
      (List.range (min (u8 bs 43).toNat 6)).map (rawLink bs) := by
    refine List.map_congr_left fun i hi => ?_
    have six : i < 6 := Nat.lt_of_lt_of_le (List.mem_range.1 hi) (Nat.min_le_right _ _)
    simp only [rawLink, u16_take bs (show 68 + 14 * i + 1 < 152 by omega),
      u32_take bs (show 68 + 14 * i + 2 + 3 < 152 by omega), u32_take bs (show 68 + 14 * i + 6 + 3 < 152 by omega),
      u32_take bs (show 68 + 14 * i + 10 + 3 < 152 by omega)]
  have byte {o : Nat} (h : o < 152) := u8_take bs h
  have word {o : Nat} (h : o + 3 < 152) := u32_take bs h
  unfold rawRobot
  simp (disch := decide) only [byte, word]
  exact congrArg _ links

variable {first count : Nat} {records : List Byte}

/-- Record `i` of a load, read. -/
theorem rawRecords_getElem {i : Nat} (hi : i < count) :
    ((recordsOf records 152 count).map rawRobot)[i]? = some (rawRobot (records.drop (i * 152))) := by
  rw [recordsOf, List.map_map, List.getElem?_map, List.getElem?_range hi]
  exact congrArg some (rawRobot_take _)

theorem recordsOf_length : (recordsOf records 152 count).length = count := by simp [recordsOf]

/-! ### The lock -/

variable (s : State)

/-- The lowest robot of a run in a wave state locks it (R5). -/
theorem lockedRobot_lowest (fits : first + count ≤ 480) {r : RobotNo} (hr : first ≤ r.val ∧ r.val < first + count)
    (locks : (s.robot r).slot.inWave = true)
    (lowest : ∀ q : RobotNo, first ≤ q.val ∧ q.val < first + count → q < r → (s.robot q).slot.inWave = false) :
    lockedRobot s first count = some r := by
  have place : r.val - first < (robotsIn first count).length := by rw [robotsIn_length fits]; omega
  refine List.find?_eq_some_iff_getElem.2 ⟨locks, _, place, Fin.ext ?_, fun j hj => ?_⟩
  · rw [robotsIn_getElem fits]; omega
  · have value := robotsIn_getElem fits (Nat.lt_trans hj place)
    rw [lowest _ (by rw [value]; omega) (by rw [Fin.lt_def, value]; omega)]
    rfl

theorem lockedRobot_none
    (unlocked : ∀ r : RobotNo, first ≤ r.val ∧ r.val < first + count → (s.robot r).slot.inWave = false) :
    lockedRobot s first count = none :=
  List.find?_eq_none.2 fun r hr => by rw [unlocked r (mem_robotsIn.1 hr)]; decide

/-- The robots of a run whose moves are withdrawn, counted over all robots. -/
theorem withdrawn_count (fits : first + count ≤ 480) (p : RobotNo → Bool) :
    ((robotsIn first count).filter p).length =
      ((List.finRange 480).filter fun r => decide (first ≤ r.val ∧ r.val < first + count) && p r).length := by
  refine List.Perm.length_eq ((List.perm_ext_iff_of_nodup ((robotsIn_nodup fits).filter p)
    ((List.nodup_finRange 480).filter _)).2 fun r => ?_)
  simp only [List.mem_filter, mem_robotsIn, List.mem_finRange, true_and, Bool.and_eq_true, decide_eq_true_eq]

/-! ### What a load that passes leaves -/

/-- The records of a run written, and the stale line work gone (R6, R7). -/
def writtenRun (s : State) (first count : Nat) (records : List Byte) : State :=
  (applyRobots s ((robotsIn first count).zip
      (((recordsOf records 152 count).map rawRobot).map RawRobot.static))).modLines
    fun e => e.dropStale fun r => decide (first ≤ r.val) && decide (r.val < first + count)

/-- The state that a LOAD of robot records leaves (R6, R7). -/
def loadedRobots (s : State) (first count : Nat) (records : List Byte) : State :=
  (writtenRun s first count records).settle fun _ e => e.namesIn first count

theorem loadRobots_passed (fits : first + count ≤ 480) (unlocked : lockedRobot s first count = none)
    (passed : robotRangeFault s first count [] first ((recordsOf records 152 count).map rawRobot) = none) :
    loadRobots s first count (recordsOf records 152 count) = ⟨loadedRobots s first count records, .ok,
      le16 (halfOf count) ++ le16 (halfOf ((List.finRange 480).filter fun r =>
        decide (first ≤ r.val ∧ r.val < first + count) && (s.inOpen r || s.inDeferred r)).length)⟩ := by
  rw [← withdrawn_count fits]
  unfold loadRobots
  rw [unlocked]
  dsimp only
  rw [passed]
  rfl

theorem loadedRobots_robot (r : RobotNo) :
    (loadedRobots s first count records).robot r = (writtenRun s first count records).robot r := settleWith_robot ..

theorem writtenRun_zone (z : ZoneId) : (writtenRun s first count records).zone z = s.zone z := by
  rw [writtenRun, applyRobots_eq]; rfl

theorem writtenRun_line (l : LineNo) : (writtenRun s first count records).line l =
    (s.line l).dropStale fun r => decide (first ≤ r.val ∧ r.val < first + count) := by
  rw [writtenRun, applyRobots_eq, line_modLines]
  simp only [Bool.decide_and]
  rfl

/-- A record outside the run is left as it was. -/
theorem loadedRobots_outside (fits : first + count ≤ 480) {r : RobotNo}
    (hr : ¬(first ≤ r.val ∧ r.val < first + count)) : (loadedRobots s first count records).robot r = s.robot r := by
  rw [loadedRobots_robot]
  exact (applyRobots_run s fits (by simp [recordsOf])).1 r hr

/-- A record of the run as written (R6). -/
theorem loadedRobots_inside (fits : first + count ≤ 480) {r : RobotNo} (hr : first ≤ r.val ∧ r.val < first + count) :
    (loadedRobots s first count records).robot r =
      let raw := rawRobot (records.drop ((r.val - first) * 152))
      { static := raw.static, slot := if raw.present then .uncertain else .absent,
        believed := Position.zero, reported := Pair.zero, reportedValid := false, fault := 0, stack := [],
        rest := .uncertain,
        lastOutcome := if s.inOpen r || s.inDeferred r then .withdrawn else (s.robot r).lastOutcome,
        lastReason := if s.inOpen r || s.inDeferred r then .none else (s.robot r).lastReason } := by
  have record : (((recordsOf records 152 count).map rawRobot).map RawRobot.static)[r.val - first]? =
      some (rawRobot (records.drop ((r.val - first) * 152))).static := by
    rw [List.getElem?_map, rawRecords_getElem (by omega)]; rfl
  have written := (applyRobots_run s fits (by simp [recordsOf])).2 r _ hr.1 hr.2 record
  rw [applyRobot_robot, if_pos rfl, static_present] at written
  exact (loadedRobots_robot s r).trans written

/-- The lists after a load hold no record of its robots. -/
theorem loadedRobots_lists (fits : first + count ≤ 480) :
    (loadedRobots s first count records).openWave =
        s.openWave.filter (fun m => ¬(first ≤ m.robot.val ∧ m.robot.val < first + count)) ∧
      (loadedRobots s first count records).deferred =
        s.deferred.filter fun d => ¬(first ≤ d.record.robot.val ∧ d.record.robot.val < first + count) := by
  obtain ⟨o, d⟩ := applyRobots_lists s ((robotsIn first count).zip
    (((recordsOf records 152 count).map rawRobot).map RawRobot.static))
  have keys : ((robotsIn first count).zip (((recordsOf records 152 count).map rawRobot).map RawRobot.static)).map Prod.fst =
      robotsIn first count := List.map_fst_zip (by simp [robotsIn_length fits, recordsOf])
  rw [keys] at o d
  simp only [mem_robotsIn] at o d
  exact ⟨(settleWith_openWave ..).trans o, (settleWith_deferred ..).trans d⟩

theorem loadedRobots_line (l : LineNo) : (loadedRobots s first count records).line l =
    (s.line l).dropStale fun r => decide (first ≤ r.val ∧ r.val < first + count) :=
  (settleWith_line ..).trans (writtenRun_line s l)

/-- Everything else is kept by a load (R7). -/
theorem loadedRobots_rest : let t := loadedRobots s first count records
    t.wave = s.wave ∧ t.waveCounter = s.waveCounter ∧ t.curves = s.curves ∧ t.profiles = s.profiles ∧ t.epoch = s.epoch ∧
      t.timer = s.timer ∧ t.events.masks = s.events.masks ∧ t.trunk = s.trunk := by
  simp only [loadedRobots, State.settle, settleWith_wave, settleWith_waveCounter, settleWith_curves, settleWith_profiles,
    settleWith_epoch, settleWith_timer, settleWith_trunk, (settleWith_events _ _ _).2]
  rw [writtenRun, applyRobots_eq]
  exact ⟨rfl, rfl, rfl, rfl, rfl, rfl, rfl, rfl⟩

theorem namesIn_iff (e : Zone) :
    e.namesIn first count = true ↔ ∃ r : RobotNo, (first ≤ r.val ∧ r.val < first + count) ∧ e.names r = true := by
  simp only [Zone.namesIn, Zone.names, Bool.or_eq_true, Option.any_eq_true, Bool.and_eq_true, decide_eq_true_eq]
  constructor
  · rintro (⟨r, h, hr⟩ | ⟨r, h, hr⟩)
    · exact ⟨r, hr, .inl h⟩
    · exact ⟨r, hr, .inr h⟩
  · rintro ⟨r, hr, h | h⟩
    · exact .inl ⟨r, h, hr⟩
    · exact .inr ⟨r, h, hr⟩

/-- The zones after a load: only those that name a robot of the run are settled, and one that names a present one is
BLOCKED or held by a move (R7, R51). -/
theorem loadedRobots_zone (fits : first + count ≤ 480) (z : ZoneId) : let t := loadedRobots s first count records
    (t.zone z).memberA = (s.zone z).memberA ∧ (t.zone z).memberB = (s.zone z).memberB ∧
      ((∀ r : RobotNo, first ≤ r.val ∧ r.val < first + count → (s.zone z).names r = false) → t.zone z = s.zone z) ∧
      ((∃ r : RobotNo, (first ≤ r.val ∧ r.val < first + count) ∧ (s.zone z).names r = true ∧
          (rawRobot (records.drop ((r.val - first) * 152))).present = true) →
        (t.zone z).holder = .blocked ∨ ∃ q, (t.zone z).holder = .moving q ∧ (t.robot q).slot.inWave = true) := by
  have robot := loadedRobots_robot (count := count) (first := first) (records := records) s
  have zone : (loadedRobots s first count records).zone z =
      if (s.zone z).namesIn first count then (writtenRun s first count records).settled
        (writtenRun s first count records).undecidedMembers z.val (s.zone z) else s.zone z :=
    (zone_settleWith ..).trans (by rw [writtenRun_zone])
  dsimp only
  rw [zone]
  by_cases named : (s.zone z).namesIn first count = true
  · rw [if_pos named]
    refine ⟨settled_memberA .., settled_memberB .., fun none => ?_, ?_⟩
    · obtain ⟨r, hr, hn⟩ := (namesIn_iff _).1 named
      exact absurd (hn.symm.trans (none r hr)) (by decide)
    · rintro ⟨r, hr, hn, present⟩
      have uncertain : ((writtenRun s first count records).robot r).slot = .uncertain := by
        rw [← robot, loadedRobots_inside s fits hr]
        exact if_pos present
      refine (settled_names_uncertain _ _ uncertain hn z.val).imp_right ?_
      rintro ⟨q, -, hm, -, hw⟩
      exact ⟨q, hm, by rw [robot]; exact hw⟩
  · rw [if_neg named]
    refine ⟨rfl, rfl, fun _ => rfl, ?_⟩
    rintro ⟨r, hr, hn, -⟩
    exact absurd ((namesIn_iff _).2 ⟨r, hr, hn⟩) named

end Sys2Proof.Machine
end

section
/-!
O24: the tests of R5 on one record, and what a LOAD of robot records answers.
-/

namespace Sys2Proof.Machine

/-! ### The tests of R5 -/

variable (s : State) (r : RobotNo) (x : RawRobot)

theorem inHub_iff (w : Word) : inHub w = true ↔ -190000 ≤ w.toInt ∧ w.toInt ≤ 190000 := by
  rw [inHub, Bool.and_eq_true, decide_eq_true_eq, decide_eq_true_eq]; rfl

theorem inElbow_iff (w : Word) : inElbow w = true ↔ 0 ≤ w.toInt ∧ w.toInt ≤ 190000 := by
  rw [inElbow, Bool.and_eq_true, decide_eq_true_eq, decide_eq_true_eq]; rfl

theorem badAddr_iff : x.badAddr = true ↔ 3 < x.line.toNat ∨ x.drop = 0 ∨ 120 < x.drop.toNat := by
  simp only [RawRobot.badAddr, Bool.or_eq_true, decide_eq_true_eq, or_assoc]
  bv_omega

/-- A record of a load of one is DUPLICATE when another present robot stands at its address (R5). -/
theorem duplicate_iff : duplicateAddr s r.val 1 [] x = true ↔ ∃ q, q ≠ r ∧ (s.robot q).static.present = true ∧
    (s.robot q).static.line.val = x.line.toNat ∧ (s.robot q).static.drop = x.drop := by
  have held : duplicateAddr s r.val 1 [] x = true ↔ ∃ i, i ∈ indicesFrom
      (fun i b => !(decide (r.val ≤ i) && decide (i < r.val + 1)) && x.heldAddress b.static) 0 s.robots.toList := by
    simp [duplicateAddr, List.eq_nil_iff_forall_not_mem]
  rw [held]
  simp only [mem_indicesFrom, RawRobot.heldAddress, Bool.and_eq_true, Bool.not_eq_true', Bool.and_eq_false_iff,
    decide_eq_false_iff_not, decide_eq_true_eq, Nat.zero_add]
  constructor
  · rintro ⟨i, _, hi, rfl, away, ⟨present, line⟩, drop⟩
    rw [Vector.length_toList] at hi
    exact ⟨⟨i, hi⟩, by rw [Ne, Fin.ext_iff]; dsimp only; omega, present, line, drop⟩
  · rintro ⟨q, hq, present, line, drop⟩
    rw [Ne, Fin.ext_iff] at hq
    exact ⟨q.val, q.val, by rw [Vector.length_toList]; exact q.isLt, rfl, by omega, ⟨present, line⟩, drop⟩

theorem fenceMode?_none (b : Byte) : (fenceMode? b).isNone = true ↔ 2 < b.toNat := by
  unfold fenceMode?
  split
  iterate 3 next h => simp [h]
  next h0 h1 h2 =>
    have low : b.toNat ≠ 0 ∧ b.toNat ≠ 1 ∧ b.toNat ≠ 2 := ⟨h0, h1, h2⟩
    exact iff_of_true rfl (by omega)

theorem badLimit_iff : x.badLimit = true ↔
    ¬(-190000 ≤ x.hubMin.toInt ∧ x.hubMin.toInt ≤ 190000) ∨ ¬(-190000 ≤ x.hubMax.toInt ∧ x.hubMax.toInt ≤ 190000) ∨
      ¬(0 ≤ x.elbowMin.toInt ∧ x.elbowMin.toInt ≤ 190000) ∨ ¬(0 ≤ x.elbowMax.toInt ∧ x.elbowMax.toInt ≤ 190000) ∨
      x.hubMax.toInt < x.hubMin.toInt ∨ x.elbowMax.toInt < x.elbowMin.toInt ∨ 2 < x.fenceMode.toNat ∨
      ¬(-190000 ≤ x.fs.toInt ∧ x.fs.toInt ≤ 190000) ∨ ¬(-190000 ≤ x.fe.toInt ∧ x.fe.toInt ≤ 190000) := by
  simp only [RawRobot.badLimit, Bool.or_eq_true, Bool.not_eq_true', ← Bool.not_eq_true, inHub_iff, inElbow_iff,
    decide_eq_true_eq, fenceMode?_none, or_assoc]

theorem badGear_iff : x.badGear = true ↔ 16777215 < x.gearHub.toNat ∨ 16777215 < x.gearElbow.toNat ∨
    ¬(-65536 ≤ x.coupling.toInt ∧ x.coupling.toInt ≤ 65536) := by
  simp only [RawRobot.badGear, Bool.or_eq_true, decide_eq_true_eq, or_assoc]
  simp only [Config.gearMax, Config.couplingMax]
  omega

theorem badLinkFor_iff (k : RawLink) : badLinkFor s r.val k = true ↔
    ¬(-190000 ≤ k.ws.toInt ∧ k.ws.toInt ≤ 190000) ∨ ¬(-190000 ≤ k.we.toInt ∧ k.we.toInt ≤ 190000) ∨
      ¬(0 ≤ k.thr.toInt ∧ k.thr.toInt ≤ 190000) ∨
      ∀ z : ZoneId, z.val = k.zone.toNat → (s.zone z).memberA ≠ some r ∧ (s.zone z).memberB ≠ some r := by
  have any (m : Option RobotNo) : m.any (fun q => decide (q.val = r.val)) = decide (m = some r) := by
    cases m with
    | none => rfl
    | some q => simp [Fin.ext_iff]
  simp only [badLinkFor, Bool.or_eq_true, Bool.not_eq_true', ← Bool.not_eq_true, inHub_iff, inElbow_iff, or_assoc, any]
  refine or_congr_right (or_congr_right (or_congr_right ?_))
  by_cases h : k.zone.toNat < 1024
  · rw [index?_of_lt h]
    simp only [Bool.not_eq_true', Bool.or_eq_false_iff, decide_eq_false_iff_not]
    exact ⟨fun away z hz => (Fin.ext hz : z = ⟨_, h⟩) ▸ away, fun away => away ⟨_, h⟩ rfl⟩
  · rw [index?_of_le (by omega)]
    exact iff_of_true rfl fun z hz => absurd z.isLt (by omega)

theorem badLink_iff : x.badLink s r.val = true ↔ 6 < x.linkCount.toNat ∨
    (∃ k ∈ x.links, ¬(-190000 ≤ k.ws.toInt ∧ k.ws.toInt ≤ 190000) ∨ ¬(-190000 ≤ k.we.toInt ∧ k.we.toInt ≤ 190000) ∨
      ¬(0 ≤ k.thr.toInt ∧ k.thr.toInt ≤ 190000) ∨
      ∀ z : ZoneId, z.val = k.zone.toNat → (s.zone z).memberA ≠ some r ∧ (s.zone z).memberB ≠ some r) ∨
    ¬(x.links.map RawLink.zone).Nodup := by
  rw [← repeatsZone_iff, Bool.not_eq_false]
  simp only [RawRobot.badLink, Bool.or_eq_true, decide_eq_true_eq, List.any_eq_true, badLinkFor_iff, or_assoc]
  rfl

theorem badHome_iff : x.badHome = true ↔
    ¬(x.hubMin.toInt ≤ x.homeAngles.hub.toInt ∧ x.homeAngles.hub.toInt ≤ x.hubMax.toInt) ∨
      ¬(x.elbowMin.toInt ≤ x.homeAngles.elbow.toInt ∧ x.homeAngles.elbow.toInt ≤ x.elbowMax.toInt) ∨
      forbidden x.static x.homeAngles.hub.toInt = true ∨ ∃ k ∈ x.links, k.thr.toInt ≤ x.homeAngles.elbow.toInt := by
  simp only [RawRobot.badHome, Bool.or_eq_true, decide_eq_true_eq, List.any_eq_true, not_and_or, Int.not_le, or_assoc]

/-! ### The answer of a load -/

variable {s} {first count : Half} {records : List Byte}

theorem hunting_of_trunk {s t : State} (h : t.trunk = s.hunting.trunk) : t.hunting = t := by
  rw [State.hunting, h]
  exact congrArg (fun k => { t with trunk := k }) h.symm

theorem serve_loadRobots (hc : count.toNat ≠ 0) (fits : first.toNat + count.toNat ≤ 480)
    (hl : records.length = count.toNat * 152) : serve s (loadFrame 0xFFFF 1 first count records) =
      loadRobots s first.toNat count.toNat (recordsOf records 152 count.toNat) := by
  rw [serve, parse_load]
  show serveLoad s 1 first count records = _
  unfold serveLoad
  rw [show loadShape 1 = some (480, 152) from rfl]
  dsimp only
  rw [if_neg (by omega), if_neg (by omega)]
  rfl

/-- The tests of a run do not depend on the receiving half. -/
theorem robotRangeFault_hunting (first count : Nat) (before : List RawRobot) (r : Nat) (xs : List RawRobot) :
    robotRangeFault s.hunting first count before r xs = robotRangeFault s first count before r xs := by
  induction xs generalizing before r with
  | nil => rfl
  | cons x xs ih =>
    rw [robotRangeFault, robotRangeFault, ih,
      show robotRecordFault s.hunting first count before r x = robotRecordFault s first count before r x from rfl]

/-- What a LOAD of robot records is answered: refused for its lock or its first fault, or carried out. -/
theorem exec_loadRobots (ready : Ready s) (short : records.length + 5 ≤ 512) (hc : count.toNat ≠ 0)
    (fits : first.toNat + count.toNat ≤ 480) (hl : records.length = count.toNat * 152) :
    let c := Instr.loadRobot 0xFFFF first count records
    (∀ r, lockedRobot s first.toNat count.toNat = some r → exec c s = .next (s.refuse 0xFFFF 16 .locked r.val)) ∧
    (lockedRobot s first.toNat count.toNat = none →
      (∀ why n, robotRangeFault s first.toNat count.toNat [] first.toNat
          ((recordsOf records 152 count.toNat).map rawRobot) = some (why, n) →
        exec c s = .next (s.refuse 0xFFFF 16 why n)) ∧
      (robotRangeFault s first.toNat count.toNat [] first.toNat
          ((recordsOf records 152 count.toNat).map rawRobot) = none →
        exec c s = .next ((loadedRobots s.hunting first.toNat count.toNat records).answer 0xFFFF 16 .ok (le16 count ++
          le16 (halfOf ((List.finRange 480).filter fun r =>
            decide (first.toNat ≤ r.val ∧ r.val < first.toNat + count.toNat) && (s.inOpen r || s.inDeferred r)).length))))) := by
  have carried : (loadFrame 0xFFFF 1 first count records).payload.length ≤ Config.payloadMax := by
    simp only [loadFrame, List.length_cons, List.length_append, le16_length, Config.payloadMax]
    omega
  have served := serve_loadRobots (s := s.hunting) hc fits hl
  have answer {t : State} {status : Status} {payload : List Byte}
      (h : serve s.hunting (loadFrame 0xFFFF 1 first count records) = (⟨t.hunting, status, payload⟩ : Served)) :=
    exec_answer (c := .loadRobot 0xFFFF first count records) rfl ready carried h
  refine ⟨fun r locked => answer (t := s) ?_, fun unlocked => ⟨fun why n fault => answer (t := s) ?_, fun passed => ?_⟩⟩
  · rw [served, loadRobots, show lockedRobot s.hunting first.toNat count.toNat = _ from locked]
    rfl
  · rw [served, loadRobots, show lockedRobot s.hunting first.toNat count.toNat = _ from unlocked]
    dsimp only
    rw [robotRangeFault_hunting, fault]
    rfl
  · have trunk : (loadedRobots s.hunting first.toNat count.toNat records).trunk = s.hunting.trunk := by
      obtain ⟨-, -, -, -, -, -, -, h⟩ := loadedRobots_rest (first := first.toNat) (count := count.toNat)
        (records := records) s.hunting
      exact h
    refine answer ?_
    rw [served, loadRobots_passed s.hunting fits unlocked ((robotRangeFault_hunting ..).trans passed), hunting_of_trunk trunk,
      show halfOf count.toNat = count from BitVec.ofNat_toNat ..]
    rfl

/-- The tests of a load of one record are those of the record. -/
theorem robotRangeFault_one {record : List Byte} (hl : record.length = 152) :
    robotRangeFault s r.val 1 [] r.val ((recordsOf record 152 1).map rawRobot) =
      (robotRecordFault s r.val 1 [] r.val (rawRobot record)).map fun why => (why, r.val) := by
  have one : (recordsOf record 152 1).map rawRobot = [rawRobot record] := by
    simp [recordsOf, recordOf, List.range_succ, ← hl]
  rw [one, robotRangeFault]
  cases robotRecordFault s r.val 1 [] r.val (rawRobot record) <;> rfl

/-- What a LOAD of one record is answered by its tests. -/
theorem exec_loadOne {record : List Byte} (ready : Ready s) (hl : record.length = 152)
    (unlocked : (s.robot r).slot.inWave = false) :
    (∀ why, robotRecordFault s r.val 1 [] r.val (rawRobot record) = some why →
      exec (.loadRobot 0xFFFF (halfOf r.val) 1 record) s = .next (s.refuse 0xFFFF 16 why r.val)) ∧
    (robotRecordFault s r.val 1 [] r.val (rawRobot record) = none → ∃ (t : State) (P : List Byte),
      exec (.loadRobot 0xFFFF (halfOf r.val) 1 record) s = .next (t.answer 0xFFFF 16 .ok P) ∧
        (t.robot r).static = (rawRobot record).static) := by
  have index : (halfOf r.val).toNat = r.val := halfOf_toNat (by have := r.isLt; omega)
  have fits : r.val + 1 ≤ 480 := r.isLt
  obtain ⟨-, outcome⟩ := exec_loadRobots (first := halfOf r.val) (count := 1) (records := record) ready (by omega)
    (by decide) (by rw [index]; exact fits) hl
  rw [index, show (1 : Half).toNat = 1 from rfl, robotRangeFault_one r hl] at outcome
  obtain ⟨refused, passed⟩ := outcome (lockedRobot_none s fun q hq => by
    rw [Fin.ext (show q.val = r.val by omega)]; exact unlocked)
  refine ⟨fun why fault => refused why r.val (by rw [fault]; rfl), fun ok => ⟨_, _, passed (by rw [ok]; rfl), ?_⟩⟩
  rw [loadedRobots_inside s.hunting fits ⟨le_rfl, Nat.lt_succ_self _⟩, Nat.sub_self, Nat.zero_mul, List.drop_zero]

/-- Settles O24: the lock, the faults, what a load leaves, and the tests of one record in their order. -/
theorem robotLoad : Obligations.RobotLoad := by
  refine ⟨fun s first count records ready short hc fits hl => ?_, fun s r record ready hl unlocked => ?_⟩
  · obtain ⟨locks, outcome⟩ := exec_loadRobots ready short hc fits hl
    refine ⟨fun r hr locked lowest => locks r (lockedRobot_lowest s fits hr locked lowest), fun unlocked => ?_⟩
    obtain ⟨refused, passed⟩ := outcome (lockedRobot_none s unlocked)
    refine ⟨refused, fun ok => ⟨_, passed ok, fun r hr => loadedRobots_outside s.hunting fits hr,
      fun r hr => loadedRobots_inside s.hunting fits hr, (loadedRobots_lists s.hunting fits).1,
      (loadedRobots_lists s.hunting fits).2, loadedRobots_line s.hunting, loadedRobots_zone s.hunting fits, ?_⟩⟩
    obtain ⟨wave, counter, curves, profiles, epoch, timer, masks, -⟩ := loadedRobots_rest (first := first.toNat)
      (count := count.toNat) (records := records) s.hunting
    exact ⟨wave, counter, curves, profiles, epoch, timer, masks⟩
  · obtain ⟨answers, passes⟩ := exec_loadOne r ready hl unlocked
    dsimp only
    generalize rawRobot record = x at *
    refine ⟨fun absent => passes (if_pos absent), fun present => ?_⟩
    have tested : ¬x.present = false := by rw [present]; decide
    rw [robotRecordFault, if_neg tested] at answers passes
    refine ⟨fun h => answers _ (if_pos ((badAddr_iff x).2 h)), fun h1 => ?_⟩
    rw [if_neg (mt (badAddr_iff x).1 h1)] at answers passes
    refine ⟨fun h => answers _ (if_pos ((duplicate_iff s r x).2 h)), fun h2 => ?_⟩
    rw [if_neg (mt (duplicate_iff s r x).1 h2)] at answers passes
    refine ⟨fun h => answers _ (if_pos ((badLimit_iff x).2 h)), fun h3 => ?_⟩
    rw [if_neg (mt (badLimit_iff x).1 h3)] at answers passes
    refine ⟨fun h => answers _ (if_pos ((badGear_iff x).2 h)), fun h4 => ?_⟩
    rw [if_neg (mt (badGear_iff x).1 h4)] at answers passes
    refine ⟨fun h => answers _ (if_pos ((badLink_iff s r x).2 h)), fun h5 => ?_⟩
    rw [if_neg (mt (badLink_iff s r x).1 h5)] at answers passes
    exact ⟨fun h => answers _ (if_pos ((badHome_iff x).2 h)), fun h => passes (if_neg (mt (badHome_iff x).1 h))⟩

end Sys2Proof.Machine
end

section
/-!
SUPPORT. What the decision of a member leaves: the vocabulary of the statements about outcomes, proved of the operations that
decide.
-/

namespace Sys2Proof.Machine

/-- A change of a robot's record leaves the members. -/
theorem member?_modRobot (s : State) (r q : RobotNo) (f : Robot → Robot) : (s.modRobot r f).member? q = s.member? q := rfl

/-! ### States alike to the rules that decide -/

/-- Two states hold the same robots, zones, moves and waves; their lines, events and clocks may differ. -/
structure Alike (s t : State) : Prop where
  robots : t.robots = s.robots
  zones : t.zones = s.zones
  openWave : t.openWave = s.openWave
  deferred : t.deferred = s.deferred
  wave : t.wave = s.wave
  waveCounter : t.waveCounter = s.waveCounter
  epoch : t.epoch = s.epoch

namespace Alike

variable {s t u : State}

theorem refl (s : State) : Alike s s := ⟨rfl, rfl, rfl, rfl, rfl, rfl, rfl⟩

theorem trans (h : Alike s t) (k : Alike t u) : Alike s u :=
  ⟨k.robots.trans h.robots, k.zones.trans h.zones, k.openWave.trans h.openWave, k.deferred.trans h.deferred,
    k.wave.trans h.wave, k.waveCounter.trans h.waveCounter, k.epoch.trans h.epoch⟩

theorem symm (h : Alike s t) : Alike t s :=
  ⟨h.robots.symm, h.zones.symm, h.openWave.symm, h.deferred.symm, h.wave.symm, h.waveCounter.symm, h.epoch.symm⟩

theorem clock (t : Time) : Alike s (s.clock t) := ⟨rfl, rfl, rfl, rfl, rfl, rfl, rfl⟩

theorem modLine (l : LineNo) (f : Line → Line) : Alike s (s.modLine l f) := ⟨rfl, rfl, rfl, rfl, rfl, rfl, rfl⟩

theorem raise (c : EventClass) (d : Half) : Alike s (s.raise c d) := ⟨rfl, rfl, rfl, rfl, rfl, rfl, rfl⟩

theorem robot (h : Alike s t) (r : RobotNo) : t.robot r = s.robot r := robot_congr h.robots r

theorem zone (h : Alike s t) (z : ZoneId) : t.zone z = s.zone z := zone_congr h.zones z

theorem member? (h : Alike s t) (r : RobotNo) : t.member? r = s.member? r := member?_congr h.wave r

theorem members (h : Alike s t) : t.members = s.members := by simp [State.members, h.wave]

theorem modRobot (h : Alike s t) (r : RobotNo) (f : Robot → Robot) : Alike (s.modRobot r f) (t.modRobot r f) where
  robots := by simp only [State.modRobot, State.setRobot, h.robot, h.robots]
  zones := h.zones
  openWave := h.openWave
  deferred := h.deferred
  wave := h.wave
  waveCounter := h.waveCounter
  epoch := h.epoch

end Alike

/-! ### The outcomes from and to states alike -/

section

variable {s s' u u' : State} {r : RobotNo} {m : Member} {o : Ending} {why : Reason}

theorem Decides.congr (h : Decides s u r m) (hs : Alike s s') (hu : Alike u u')
    (cycle : ∀ p ∈ (u'.line (s'.robot r).static.line).cycle, p.robot ≠ r) : Decides s' u' r m where
  member := by rw [hu.members]; exact h.member
  decided := (hu.member? r).trans h.decided
  kept := by rw [hs.members, hu.members]; exact h.kept
  wave := by rw [hs.wave, hu.wave, hu.members]; exact h.wave
  cycle := cycle
  others q hq := by rw [hu.robot, hs.robot]; exact h.others q hq
  moves := by rw [hu.openWave, hs.openWave, hu.deferred, hs.deferred, hu.waveCounter, hs.waveCounter, hu.epoch, hs.epoch]
              exact h.moves

theorem EndsUncertain.congr (h : EndsUncertain s u r m o why) (hs : Alike s s') (hu : Alike u u')
    (cycle : ∀ p ∈ (u'.line (s'.robot r).static.line).cycle, p.robot ≠ r) : EndsUncertain s' u' r m o why where
  toDecides := h.toDecides.congr hs hu cycle
  robot := by rw [hu.robot, hs.robot]; exact h.robot
  zones z := by rw [hs.zone, hu.zone]; exact h.zones z
  named z := by simp only [hs.zone, hu.zone, hu.robot]; exact h.named z

theorem Arrives.congr (h : Arrives s u r m) (hs : Alike s s') (hu : Alike u u')
    (cycle : ∀ p ∈ (u'.line (s'.robot r).static.line).cycle, p.robot ≠ r) : Arrives s' u' r m where
  toDecides := h.toDecides.congr hs hu cycle
  robot := by rw [hu.robot, hs.robot]; exact h.robot
  zones z := by rw [hs.zone, hu.zone]; exact h.zones z

theorem EndsAtRest.congr (h : EndsAtRest s u r m o why) (hs : Alike s s') (hu : Alike u u')
    (cycle : ∀ p ∈ (u'.line (s'.robot r).static.line).cycle, p.robot ≠ r) : EndsAtRest s' u' r m o why where
  toDecides := h.toDecides.congr hs hu cycle
  robot := by rw [hu.robot, hs.robot]; exact h.robot
  zones z := by rw [hs.zone, hu.zone]; exact h.zones z
  named := by simp only [hs.robot, hs.zone, hu.zone, hu.robot]; exact h.named

theorem Decides.cycle_of_alike (h : Decides s' u r m) (hs : Alike s s') :
    ∀ p ∈ (u.line (s.robot r).static.line).cycle, p.robot ≠ r := by
  rw [← hs.robot]; exact h.cycle

theorem EndsUncertain.of_alike (h : EndsUncertain s' u r m o why) (hs : Alike s s') : EndsUncertain s u r m o why :=
  h.congr hs.symm (.refl u) (h.toDecides.cycle_of_alike hs)

theorem EndsAtRest.of_alike (h : EndsAtRest s' u r m o why) (hs : Alike s s') : EndsAtRest s u r m o why :=
  h.congr hs.symm (.refl u) (h.toDecides.cycle_of_alike hs)

theorem Arrives.of_alike (h : Arrives s' u r m) (hs : Alike s s') : Arrives s u r m :=
  h.congr hs.symm (.refl u) (h.toDecides.cycle_of_alike hs)

end

/-! ### The decision of a member -/

variable {s : State} {r : RobotNo} {m : Member} {o : Ending} {why : Reason}

/-- The members after a decision: the robot's undecided member decided, the others kept (R74). -/
theorem members_conclude {u : State} (wave : u.wave = (s.conclude r o why).wave) : u.members =
    s.members.map fun q => if q.robot = r ∧ q.undecided = true then q.decided o why else q := by
  rw [← members_modMember s r fun q => q.decided o why]
  simp only [State.members, wave, conclude_wave]

/-- A state whose wave record is that of a decision, with the rest kept as stated, has the member decided. -/
theorem Decides.of_conclude {u : State} (hm : s.member? r = some m) (ho : o ≠ .none)
    (wave : u.wave = (s.conclude r o why).wave) (others : ∀ q, q ≠ r → u.robot q = s.robot q)
    (cycle : ∀ p ∈ (u.line (s.robot r).static.line).cycle, p.robot ≠ r)
    (moves : u.openWave = s.openWave ∧ u.deferred = s.deferred ∧ u.waveCounter = s.waveCounter ∧ u.epoch = s.epoch) :
    Decides s u r (m.decided o why) := by
  obtain ⟨mem, undecided, robot⟩ := member?_some hm
  have members := members_conclude wave
  refine ⟨?_, ?_, fun q hq away => ?_, fun w hw distinct => ⟨w.state, ?_, .inl rfl⟩, cycle, others, moves⟩
  · rw [members]
    exact List.mem_map.2 ⟨m, mem, if_pos ⟨robot, undecided⟩⟩
  · rw [member?_congr (wave.trans (conclude_wave s r o why))]
    exact member?_modMember_decided s r fun _ => ho
  · rw [members]
    exact List.mem_map.2 ⟨q, hq, if_neg fun h => away h.1⟩
  · rw [members_of_wave hw] at mem
    rw [wave, conclude_wave, State.modMember, hw]
    dsimp only
    refine congrArg some (congrArg (fun ms => { w with members := ms }) (List.map_congr_left fun q hq => ?_))
    by_cases here : q.robot = r
    · obtain rfl := List.inj_on_of_nodup_map distinct hq mem (here.trans robot.symm)
      rw [if_pos ⟨here, undecided⟩, if_pos here]
    · rw [if_neg fun h => here h.1, if_neg here]

/-- The decided member's robot is out of its line's poll cycle (R95). -/
theorem conclude_cycle : ∀ p ∈ ((s.conclude r o why).line (s.robot r).static.line).cycle, p.robot ≠ r := by
  intro p hp
  rw [conclude_line, if_pos rfl] at hp
  simpa using (List.mem_filter.1 hp).2

/-- A decision changes nothing on a line but the poll cycle (R95). -/
theorem conclude_engine (l : LineNo) : ((s.conclude r o why).line l).state = (s.line l).state ∧
    ((s.conclude r o why).line l).txn = (s.line l).txn ∧ ((s.conclude r o why).line l).urgent = (s.line l).urgent ∧
    ((s.conclude r o why).line l).normal = (s.line l).normal := by
  rw [conclude_line]
  split <;> exact ⟨rfl, rfl, rfl, rfl⟩

/-! ### A member whose robot's position is lost -/

@[simp] theorem concludeUncertain_line (l : LineNo) :
    (s.concludeUncertain r o why).line l = (s.conclude r o why).line l := becomeUncertain_line ..

theorem concludeUncertain_events {c : EventClass} (hc : c ≠ .zoneConflict) :
    (s.concludeUncertain r o why).events.get c = s.events.get c := by
  rw [State.concludeUncertain, becomeUncertain_events _ _ hc, conclude_events]

theorem concludeUncertain_ends (hm : s.member? r = some m) (ho : o ≠ .none) :
    EndsUncertain s (s.concludeUncertain r o why) r m o why where
  toDecides := by
    refine .of_conclude hm ho (becomeUncertain_wave ..) (fun q hq => ?_) ?_ ?_
    · rw [State.concludeUncertain, becomeUncertain_robot, if_neg hq.symm, conclude_robot, if_neg hq.symm]
    · rw [concludeUncertain_line]; exact conclude_cycle
    · simp [State.concludeUncertain]
  robot := by rw [State.concludeUncertain, becomeUncertain_robot, if_pos rfl, conclude_robot, if_pos rfl]
  zones z hz := becomeUncertain_held _ r (by rw [conclude_zone, Zone.heldBy, hz]; simp)
  named z hz := by
    refine (becomeUncertain_named (s.conclude r o why) r (z := z) (by rw [conclude_zone]; exact hz)).imp_right ?_
    rintro ⟨q, hq, hm, hw⟩
    refine ⟨q, hq, hm, ?_⟩
    rw [State.concludeUncertain, becomeUncertain_robot, if_neg hq.symm]
    exact hw

/-- A member decided, and an event raised for it. -/
theorem concludeUncertain_raised (hm : s.member? r = some m) (ho : o ≠ .none) {c : EventClass} (hc : c ≠ .zoneConflict)
    (d : Half) : EndsUncertain s ((s.concludeUncertain r o why).raise c d) r m o why ∧
      ((s.concludeUncertain r o why).raise c d).events.get c = (s.events.get c).raised d := by
  refine ⟨(concludeUncertain_ends hm ho).congr (.refl s) (.raise c d) ?_, ?_⟩
  · show ∀ p ∈ ((s.concludeUncertain r o why).line _).cycle, _
    rw [concludeUncertain_line]; exact conclude_cycle
  · show (Events.put _ c _).get c = _
    rw [Events.get_put, if_pos rfl, concludeUncertain_events hc]

theorem concludeLost_ends (hm : s.member? r = some m) :
    EndsUncertain s (s.concludeLost r why) r m .lost why ∧
      (s.concludeLost r why).events.get .lost = (s.events.get .lost).raised (halfOf r.val) :=
  concludeUncertain_raised hm (by decide) (by decide) _

theorem concludeStalled_ends (hm : s.member? r = some m) :
    EndsUncertain s (s.concludeStalled r why) r m .stalled why ∧
      (s.concludeStalled r why).events.get .stall = (s.events.get .stall).raised (halfOf r.val) :=
  concludeUncertain_raised hm (by decide) (by decide) _

theorem concludeLost_engine (l : LineNo) : ((s.concludeLost r why).line l).state = (s.line l).state ∧
    ((s.concludeLost r why).line l).txn = (s.line l).txn := by
  obtain ⟨state, txn, -⟩ := conclude_engine (s := s) (r := r) (o := .lost) (why := why) l
  show ((s.concludeUncertain r .lost why).line l).state = _ ∧ ((s.concludeUncertain r .lost why).line l).txn = _
  rw [concludeUncertain_line]
  exact ⟨state, txn⟩

/-! ### A member whose robot returns to its rest state -/

theorem concludeAtRest_idle (rest : (s.robot r).rest = .idle) :
    s.concludeAtRest r o why = ((s.conclude r o why).setSlot r .idle).settleNaming r := by
  unfold State.concludeAtRest
  dsimp only
  rw [conclude_robot, if_pos rfl, rest]

theorem concludeAtRest_uncertain (rest : (s.robot r).rest = .uncertain) :
    s.concludeAtRest r o why = s.concludeUncertain r o why := by
  unfold State.concludeAtRest
  dsimp only
  rw [conclude_robot, if_pos rfl, rest]
  rfl

@[simp] theorem concludeAtRest_line (l : LineNo) :
    (s.concludeAtRest r o why).line l = (s.conclude r o why).line l := by
  cases rest : (s.robot r).rest with
  | idle => rw [concludeAtRest_idle rest]; exact settleNaming_line ..
  | uncertain => rw [concludeAtRest_uncertain rest]; exact concludeUncertain_line l

/-- From a rest state of IDLE the robot is IDLE where it was believed to be (R9). -/
theorem concludeAtRest_ends_idle (hm : s.member? r = some m) (ho : o ≠ .none) (rest : (s.robot r).rest = .idle) :
    EndsAtRest s (s.concludeAtRest r o why) r (m.decided o why) o why where
  toDecides := by
    have cycle : ∀ p ∈ ((s.concludeAtRest r o why).line (s.robot r).static.line).cycle, p.robot ≠ r := by
      rw [concludeAtRest_line]; exact conclude_cycle
    rw [concludeAtRest_idle rest] at cycle ⊢
    refine .of_conclude hm ho (settleNaming_wave ..) (fun q hq => ?_) cycle ?_
    · simp [State.setSlot, hq.symm]
    · rw [settleNaming_openWave, settleNaming_deferred, settleNaming_waveCounter, settleNaming_epoch]
      exact ⟨conclude_openWave .., conclude_deferred .., conclude_waveCounter .., conclude_epoch ..⟩
  robot := by
    rw [concludeAtRest_idle rest]
    simp [State.setSlot, rest, RestState.slot]
  zones z hz := by
    rw [concludeAtRest_idle rest]
    refine settleNaming_released _ (by simp [State.setSlot, SlotState.inWave]) ?_
    rw [show ((s.conclude r o why).setSlot r .idle).zone z = (s.conclude r o why).zone z from rfl, conclude_zone]
    exact hz
  named uncertain := absurd (uncertain.symm.trans rest) (by decide)

/-- From a rest state of UNCERTAIN the robot is UNCERTAIN again (R54). -/
theorem concludeAtRest_ends_uncertain (hm : s.member? r = some m) (ho : o ≠ .none)
    (rest : (s.robot r).rest = .uncertain) :
    EndsAtRest s (s.concludeAtRest r o why) r (m.decided o why) o why := by
  rw [concludeAtRest_uncertain rest]
  obtain ⟨decides, robot, -, named⟩ := concludeUncertain_ends hm ho (why := why)
  refine ⟨decides, ?_, fun z hz => ?_, fun _ => named⟩
  · rw [robot, rest]; rfl
  · rcases named z hz with h | ⟨q, hq, h, -⟩
    · rw [h]; nofun
    · rw [h]; exact fun e => hq (Holder.moving.inj e)

theorem concludeAtRest_ends (hm : s.member? r = some m) (ho : o ≠ .none) :
    EndsAtRest s (s.concludeAtRest r o why) r (m.decided o why) o why := by
  cases rest : (s.robot r).rest with
  | idle => exact concludeAtRest_ends_idle hm ho rest
  | uncertain => exact concludeAtRest_ends_uncertain hm ho rest

/-! ### An arrival -/

theorem arrived_eq (b : Robot) (m : Member) : b.arrived m = { b with
    believed := m.plan.target, slot := .idle, lastOutcome := .arrived, lastReason := .none
    stack := stackAfter m b.stack } := by
  unfold Robot.arrived stackAfter
  cases m.kind with
  | goto => cases m.plan.start <;> rfl
  | retrace => rfl
  | home => rfl

@[simp] theorem arrive_line (hr : m.robot = r) (l : LineNo) :
    (s.arrive m).line l = (s.conclude r .arrived .none).line l := by
  subst hr
  unfold State.arrive
  rw [settleNaming_line, conclude_line, conclude_line, robot_modRobot, if_pos rfl]
  rfl

theorem arrive_arrives (hm : s.member? r = some m) : Arrives s (s.arrive m) r m where
  toDecides := by
    obtain ⟨-, -, rfl⟩ := member?_some hm
    refine .of_conclude hm (by decide) ?_ (fun q hq => ?_) ?_ ?_
    · unfold State.arrive
      rw [settleNaming_wave, conclude_wave, conclude_wave]
      refine modMember_wave_congr ?_ _ _
      rfl
    · simp [State.arrive, hq.symm]
    · rw [arrive_line rfl]; exact conclude_cycle
    · simp [State.arrive]
  robot := by
    obtain ⟨-, -, rfl⟩ := member?_some hm
    simp [State.arrive, arrived_eq]
  zones z hz := by
    obtain ⟨-, -, rfl⟩ := member?_some hm
    refine settleNaming_released _ (by simp [SlotState.inWave]) ?_
    rw [conclude_zone]
    exact hz

end Sys2Proof.Machine
end

section
/-!
SUPPORT. How the end of a transaction reaches the rule that judges it: an answer in time, a short frame's last failure, and
the end of an END frame.
-/

namespace Sys2Proof.Machine

variable {s : State} {l : LineNo} {t : Time} {x : Txn} {f : FrameKind} {since : Nat}

theorem modLine_modLine (s : State) (l : LineNo) (f g : Line → Line) :
    (s.modLine l f).modLine l g = s.modLine l fun e => g (f e) := by
  simp [State.modLine, State.setLine, State.line]

/-! ### A valid answer -/

theorem answered?_of_phase {now : Nat} (phase : x.phase = .waiting f since ∨ x.phase = .receiving f since)
    (inTime : x.phase = .waiting f since → now ≤ since + answerLimit x.timing f) : x.answered? now = some (f, since) := by
  unfold Txn.answered?
  rcases phase with h | h
  · rw [h]; exact if_pos (inTime h)
  · rw [h]

/-- A STATUS answer must be complete within its limit, any other answer only begun within it (R131). -/
theorem inTime_of_limit {timing : Timing} {now : Nat}
    (limit : f = .readRequest → now ≤ since + answerLimit timing .readRequest) : inTime timing f since now = true := by
  unfold inTime
  split
  · exact decide_eq_true (limit rfl)
  all_goals rfl

/-- A valid answer, received to its end, is taken (R131, R132). -/
theorem receiveAnswer_valid (h : Exchanging s l x f since)
    (begun : x.phase = .waiting f since → (s.clock t).now ≤ since + answerLimit x.timing f)
    (limit : f = .readRequest → (s.clock t).now ≤ since + answerLimit x.timing .readRequest) {a : Answer}
    (fits : answerFits f a = true) (code : a.codeOk = true) : receiveAnswer (s.clock t) l (some a) =
      takeAnswer (((s.clock t).touchLine l).heard l) l x f a := by
  have valid : answerValid x.timing f since (s.clock t).now a = true := by
    rw [answerValid, fits, code, inTime_of_limit limit]; rfl
  unfold receiveAnswer
  dsimp only
  rw [show (s.clock t).line l = s.line l from rfl, h.clear, h.txn]
  dsimp only
  rw [answered?_of_phase h.phase begun]
  dsimp only [receiveAnswer.judgeAnswer]
  rw [if_pos valid]

/-- The end of an answered transaction is judged with its engine free (R118, R133). -/
theorem finishTxn_answered (en : TxnEnd) : finishTxn (((s.clock t).touchLine l).heard l) l x en =
    judgeEnd (s.answeredAt l t) l x.kind x.stale en := by
  unfold finishTxn State.touchLine State.heard State.freeEngine
  rw [modLine_modLine, modLine_modLine]
  rfl

theorem exec_answerPoll (h : Answering s l t x .poll since) {code : Byte} (hc : code.toNat ≤ 6) (posOk fault : Byte)
    (wave remaining : Half) : exec (.answerPoll l t code posOk fault wave remaining) s =
      .next (judgeEnd (s.answeredAt l t) l x.kind x.stale (.polled code (readBool posOk) fault wave remaining)) := by
  refine (running_run h.running fun s =>
    receiveAnswer (s.clock t) l (some (.poll code posOk fault wave remaining))).trans (congrArg _ ?_)
  rw [receiveAnswer_valid (a := .poll code posOk fault wave remaining) h.toExchanging h.inTime nofun rfl
    (decide_eq_true hc)]
  exact finishTxn_answered _

theorem exec_answerStatus (h : Exchanging s l x .readRequest since) {code : Byte} (hc : code.toNat ≤ 6)
    (limit : (s.clock t).now ≤ since + x.timing.tTurn.toNat + x.timing.tRead.toNat) (posOk fault : Byte) (wave : Half)
    (hub elbow : Word) : exec (.answerStatus l t code posOk fault wave hub elbow) s =
      .next (judgeEnd (s.answeredAt l t) l x.kind x.stale (.statused code (readBool posOk) fault ⟨hub, elbow⟩)) := by
  have complete : (s.clock t).now ≤ since + answerLimit x.timing .readRequest := by
    simp only [answerLimit]; omega
  refine (running_run h.running fun s =>
    receiveAnswer (s.clock t) l (some (.status code posOk fault wave hub elbow))).trans (congrArg _ ?_)
  rw [receiveAnswer_valid (a := .status code posOk fault wave hub elbow) h (fun _ => complete) (fun _ => complete) rfl
    (decide_eq_true hc)]
  exact finishTxn_answered _

theorem exec_answerAccept (h : Answering s l t x f since) (fits : answerFits f .accept = true)
    (other : f ≠ .readRequest) :
    exec (.answerAccept l t) s = .next (judgeEnd (s.answeredAt l t) l x.kind x.stale .accepted) := by
  refine (running_run h.running fun s => receiveAnswer (s.clock t) l (some (.accept))).trans (congrArg _ ?_)
  rw [receiveAnswer_valid h.toExchanging h.inTime (fun e => absurd e other) fits rfl]
  exact finishTxn_answered _

theorem exec_answerRefuse (h : Answering s l t x f since) {fault : Byte} (fits : answerFits f (.refuse fault) = true)
    (other : f ≠ .readRequest) :
    exec (.answerRefuse l t fault) s = .next (judgeEnd (s.answeredAt l t) l x.kind x.stale (.refused fault)) := by
  refine (running_run h.running fun s => receiveAnswer (s.clock t) l (some (.refuse fault))).trans (congrArg _ ?_)
  rw [receiveAnswer_valid h.toExchanging h.inTime (fun e => absurd e other) fits rfl]
  exact finishTxn_answered _

/-- The state that judges an answered transaction's end holds the robots, zones, moves and waves of the one before. -/
theorem alike_answeredAt (s : State) (l : LineNo) (t : Time) : Alike s (s.answeredAt l t) :=
  (Alike.clock t).trans (.modLine l _)

/-! ### A short frame's last attempt -/

/-- The last attempt of a short transaction fails it (R128). -/
theorem attemptFailed_last (short : f = .clear ∨ f = .halt ∨ f = .poll) (last : x.timing.nCall.toNat ≤ x.calls)
    (u : State) : attemptFailed u l x f 0 = finishTxn u l x (.failed false) := by
  have spent : ¬x.calls < x.timing.nCall.toNat := Nat.not_lt.2 last
  rcases short with rfl | rfl | rfl <;> exact if_neg spent

/-- What a failure's judgement starts from: a state alike to the one before, its engine free. -/
structure Freed (s u : State) (l : LineNo) : Prop extends Alike s u where
  events : u.events = s.events
  state : (u.line l).state = .idle
  txn : (u.line l).txn = none

theorem freed_modLine (s : State) (l : LineNo) (t : Time) (f : Line → Line) :
    Freed s (((s.clock t).modLine l f).freeEngine l) l where
  toAlike := ((Alike.clock t).trans (.modLine l f)).trans (.modLine l _)
  events := rfl
  state := by rw [State.freeEngine, line_modLine, if_pos rfl]
  txn := by rw [State.freeEngine, line_modLine, if_pos rfl]

/-- A short transaction's last failure is judged with its engine free (R118, R128). -/
theorem exec_failsLast {c : Instr} (h : FailsLast s l t x f since c) : ∃ u, Freed s u l ∧
    exec c s = .next (judgeEnd u l x.kind x.stale (.failed false)) := by
  have fail (g : Line → Line) : attemptFailed ((s.clock t).modLine l g) l x f 0 =
      judgeEnd (((s.clock t).modLine l g).freeEngine l) l x.kind x.stale (.failed false) :=
    attemptFailed_last h.short h.last _
  have garbled (g : Line → Line) : garbledAnswer ((s.clock t).modLine l g) l x f = judgeEnd
      (((s.clock t).modLine l fun e => { g e with
        counters := { (g e).counters with garbled := countUp (g e).counters.garbled }, silence := 0 }).freeEngine l) l
      x.kind x.stale (.failed false) := by
    rw [garbledAnswer, State.countGarbled, State.heard, modLine_modLine, modLine_modLine, fail]
  rcases h.cause with ⟨bytes, rfl, unfit, begun⟩ | ⟨rfl, receiving⟩ | ⟨rfl, waiting, silent, up⟩
  · refine ⟨_, freed_modLine s l t _, (running_run h.running fun s =>
      receiveAnswer (s.clock t) l (readAnswer (s.line l).answerDrop bytes)).trans (congrArg _ (Eq.trans ?_
        (garbled fun e => { e with lastChar := (s.clock t).now })))⟩
    have drop : (s.line l).answerDrop = x.drop := by rw [Line.answerDrop, h.clear, h.txn]
    unfold receiveAnswer
    dsimp only
    rw [show (s.clock t).line l = s.line l from rfl, drop, h.clear, h.txn]
    dsimp only
    rw [answered?_of_phase h.phase begun]
    dsimp only [receiveAnswer.judgeAnswer]
    cases ha : readAnswer x.drop bytes with
    | none => rfl
    | some a => exact if_neg (by rw [answerValid, unfit a ha, Bool.false_and, Bool.false_and]; decide)
  · refine ⟨_, freed_modLine s l t _, (running_run h.running fun s => cutShort (s.clock t) l false).trans
      (congrArg _ (Eq.trans ?_ (garbled fun e => { e with lastChar := max e.lastChar ((s.clock t).now - Config.charGap) })))⟩
    unfold cutShort
    dsimp only
    rw [show (s.clock t).line l = s.line l from rfl, h.clear, h.txn]
    dsimp only
    rw [receiving]
    rfl
  · refine ⟨_, freed_modLine s l t _, (running_run h.running fun s => waitSilence (s.clock t) l).trans
      (congrArg _ (Eq.trans ?_ (fail fun e =>
        { e with silence := e.silence + 1, counters := { e.counters with timeouts := countUp e.counters.timeouts } })))⟩
    unfold waitSilence
    rw [show (s.clock t).line l = s.line l from rfl, h.txn]
    dsimp only
    rw [waiting]
    dsimp only
    rw [if_pos silent, silentWait]
    refine if_neg ?_
    rw [State.countSilence, line_modLine, if_pos rfl]
    exact Nat.not_le.2 up

end Sys2Proof.Machine
end

section
/-!
O51, O45: a REFRESH answered, a stale transaction's end, and the end of END.
-/

namespace Sys2Proof.Machine

variable {s u : State} {l : LineNo} {t : Time} {x : Txn} {r : RobotNo} {m : Member}

/-! ### A wave that does not complete -/

theorem doneTest_open (h : WaveOpen u) : doneTest u = u := by
  unfold doneTest
  split
  · rfl
  · rename_i w hw
    exact if_neg fun ended => h w hw ended.1 ended.2

theorem waveOpen_congr (h : u.wave = s.wave) (stillOpen : WaveOpen s) : WaveOpen u :=
  fun w hw => stillOpen w (h.symm.trans hw)

/-- A wave with an undecided member is not complete (R83). -/
theorem waveOpen_of_member (hm : u.member? r = some m) : WaveOpen u := by
  intro w hw _ ended
  obtain ⟨mem, undecided, -⟩ := member?_some hm
  rw [members_of_wave hw] at mem
  exact absurd (undecided_eq_zero.1 ended m mem) (by rw [undecided]; decide)

/-- A command that ends in the completion test. -/
theorem endsIn_doneTest {c : Instr} {p : State → Prop} (h : exec c s = .next (doneTest u)) (hp : p u) : EndsIn c s p :=
  ⟨u, doneTest u, h, hp, doneTest_completes u⟩

/-! ### REFRESH -/

theorem storeStatus_eq (s : State) (r : RobotNo) (fault : Byte) (p : Pair) :
    s.storeStatus r fault p = s.modRobot r fun _ => { s.robot r with reported := p, reportedValid := true, fault := fault } :=
  rfl

/-- The end of a transaction whose robot's record was reloaded is not judged (R7). -/
theorem judgeEnd_stale {kind : TxnKind} (h : ∀ g, kind ≠ .go g) (en : TxnEnd) : judgeEnd s l kind true en = s := by
  cases kind with
  | go g => exact absurd rfl (h g)
  | deliver r => rfl
  | read r a b => rfl
  | clear r => rfl
  | haltSingle r => rfl
  | poll r => rfl
  | haltAll => rfl

/-- A robot found where it is believed to be, or not IDLE, is left as it was (R112). -/
theorem judgeRefresh_kept {code : Byte} {p : Pair} (h : ¬((s.robot r).slot = .idle ∧
    ¬((code = 0 ∨ code = 4) ∧ p = (s.robot r).believed.steps))) : judgeRefresh s r code p = s := if_neg h

/-- Drift makes an IDLE robot UNCERTAIN, and raises STALL (R112). -/
theorem judgeRefresh_drifted {code : Byte} {p : Pair} (h : (s.robot r).slot = .idle ∧
    ¬((code = 0 ∨ code = 4) ∧ p = (s.robot r).believed.steps)) : let v := judgeRefresh s r code p
      v.robot r = { s.robot r with
        slot := .uncertain, believed := Position.zero, lastOutcome := .stalled, lastReason := .drift } ∧
      v.events.get .stall = (s.events.get .stall).raised (halfOf r.val) ∧ v.wave = s.wave ∧
      ∀ q, q ≠ r → v.robot q = s.robot q := by
  have drift : judgeRefresh s r code p = ((s.setLast r .stalled .drift).becomeUncertain r).raise .stall (halfOf r.val) :=
    if_pos h
  have robot (q : RobotNo) : (((s.setLast r .stalled .drift).becomeUncertain r).raise .stall (halfOf r.val)).robot q =
      ((s.setLast r .stalled .drift).becomeUncertain r).robot q := rfl
  dsimp only
  rw [drift]
  refine ⟨?_, ?_, becomeUncertain_wave .., fun q hq => ?_⟩
  · rw [robot, becomeUncertain_robot, if_pos rfl, State.setLast, robot_modRobot, if_pos rfl]
  · show (Events.put _ .stall _).get .stall = _
    rw [Events.get_put, if_pos rfl, becomeUncertain_events _ _ (by decide)]
    rfl
  · rw [robot, becomeUncertain_robot, if_neg hq.symm, State.setLast, robot_modRobot, if_neg hq.symm]

/-- The end of a REFRESH's READ is judged by R112, and the wave does not go on from it. -/
theorem judgeEnd_refresh (h : u.wave = s.wave) (stillOpen : WaveOpen s) (code : Byte) (posOk : Bool) (fault : Byte) (p : Pair) :
    judgeEnd u l (.read r true false) false (.statused code posOk fault p) =
      judgeRefresh (u.storeStatus r fault p) r code p := by
  refine doneTest_open (waveOpen_congr (Eq.trans ?_ h) stillOpen)
  show (judgeRefresh _ r code p).wave = _
  unfold judgeRefresh
  dsimp only
  split
  · exact becomeUncertain_wave ..
  · rfl

/-- Settles O51: the answer of a REFRESH judged by R112, and the ends that are not judged. -/
theorem refreshAnswered : Obligations.RefreshAnswered := by
  refine fun s l t x since => ⟨fun r code posOk fault wave hub elbow ex kind fresh stillOpen hc limit => ?_,
    fun f an stale notGo => ?_⟩
  · have run := exec_answerStatus ex hc limit posOk fault wave hub elbow
    have alike := alike_answeredAt s l t
    rw [kind, fresh, judgeEnd_refresh alike.wave stillOpen, storeStatus_eq, alike.robot] at run
    have stored : ((s.answeredAt l t).modRobot r fun _ =>
        { s.robot r with reported := ⟨hub, elbow⟩, reportedValid := true, fault := fault }).robot r =
        { s.robot r with reported := ⟨hub, elbow⟩, reportedValid := true, fault := fault } := by
      rw [robot_modRobot, if_pos rfl]
    have found : Pair.mk hub elbow = (s.robot r).believed.steps ↔
        hub = (s.robot r).believed.steps.hub ∧ elbow = (s.robot r).believed.steps.elbow := by
      cases h : (s.robot r).believed.steps; exact Pair.mk.injEq .. ▸ Iff.rfl
    dsimp only
    rw [← found]
    refine ⟨fun kept => run.trans (congrArg _ (judgeRefresh_kept ?_)), fun drifted => ⟨_, run, ?_⟩⟩
    · rw [stored]; exact kept
    · obtain ⟨robot, event, wave, others⟩ := judgeRefresh_drifted (code := code) (p := ⟨hub, elbow⟩)
        (s := (s.answeredAt l t).modRobot r fun _ =>
          { s.robot r with reported := ⟨hub, elbow⟩, reportedValid := true, fault := fault }) (r := r) (by
          rw [stored]; exact drifted)
      rw [stored] at robot
      refine ⟨robot, event, wave, fun q hq => (others q hq).trans ?_⟩
      rw [robot_modRobot, if_neg hq.symm]; rfl
  · have judged (en : TxnEnd) : judgeEnd (s.answeredAt l t) l x.kind x.stale en = s.answeredAt l t := by
      rw [stale]; exact judgeEnd_stale notGo en
    refine ⟨fun hf => ?_, fun hf fault => ?_, ?_, ?_⟩
    · rcases hf with ⟨b, rfl⟩ | rfl | rfl <;> exact (exec_answerAccept an rfl nofun).trans (congrArg _ (judged _))
    · rcases hf with ⟨b, rfl⟩ | rfl <;> exact (exec_answerRefuse an rfl nofun).trans (congrArg _ (judged _))
    · rintro rfl code posOk fault wave remaining hc
      exact (exec_answerPoll an hc ..).trans (congrArg _ (judged _))
    · rintro rfl code posOk fault wave hub elbow hc limit
      exact (exec_answerStatus an.toExchanging hc limit ..).trans (congrArg _ (judged _))

end Sys2Proof.Machine
end

section
/-!
O45: the end of END.
-/

namespace Sys2Proof.Machine

variable {s u : State} {l : LineNo} {t : Time} {x : Txn} {r : RobotNo} {m : Member}

/-- The state in which the END of line `l`'s transaction has gone out. -/
def State.endedAt (s : State) (l : LineNo) (t : Time) : State :=
  (s.clock t).modLine l fun e => { e with lastChar := (s.clock t).now, state := .idle, txn := none }

theorem freed_endedAt (s : State) (l : LineNo) (t : Time) : Freed s (s.endedAt l t) l where
  toAlike := (Alike.clock t).trans (.modLine l _)
  events := rfl
  state := by rw [State.endedAt, line_modLine, if_pos rfl]
  txn := by rw [State.endedAt, line_modLine, if_pos rfl]

/-- The end of END fails its transaction (R130). -/
theorem exec_endSent (running : s.resetLow = false) (clear : (s.line l).residue = none) (txn : (s.line l).txn = some x)
    (phase : x.phase = .sending .endFrame) :
    exec (.endSent l t) s = .next (judgeEnd (s.endedAt l t) l x.kind x.stale (.failed false)) := by
  refine (running_run running fun s => endEnds (s.clock t) l).trans (congrArg _ ?_)
  have sending : x.sendingFrame?.any FrameKind.isEnd = true := by rw [Txn.sendingFrame?, phase]; rfl
  unfold endEnds
  dsimp only
  rw [show (s.clock t).line l = s.line l from rfl, clear, txn]
  dsimp only
  rw [if_pos sending, finishTxn, State.touchLine, State.freeEngine, modLine_modLine]
  rfl

/-! ### A failed DELIVER -/

/-- The CLEAR of a member whose DELIVER failed, in one change of its line (R77, R88). -/
theorem beginClear_eq (robot : m.robot = r) (b : Bool) : u.beginClear m b =
    ((u.modRobot r fun b => { b with slot := .stopping }).modMember r fun m =>
      { m with delivery := .clearing, clearLineReset := b, stop := .none }).modLine (u.robot r).static.line fun e =>
      { e with
        normal := if m.stop = .none then e.normal else dropReads e.normal fun q => decide (q = r)
        urgent := if e.state = .down then e.urgent else offerClearTo e.urgent r } := by
  subst robot
  have line (f : Member → Member) :
      ((u.setSlot m.robot .stopping).modMember m.robot f).lineOf m.robot = (u.robot m.robot).static.line := by
    rw [State.lineOf, robot_modMember, State.setSlot, robot_modRobot, if_pos rfl]
  have kept (v : State) (l : LineNo) (f : Line → Line) : (v.modLine l f).lineOf m.robot = v.lineOf m.robot := rfl
  unfold State.beginClear State.removeAbortRead
  by_cases stop : m.stop = .none
  · simp only [if_pos stop, State.offerClear, line]
    refine congrArg (State.modLine _ _) (funext fun e => ?_)
    split <;> rfl
  · simp only [if_neg stop, State.removeRead, State.offerClear, kept, line, modLine_modLine]
    refine congrArg (State.modLine _ _) (funext fun e => ?_)
    split <;> rfl

theorem armTest_unsettled {q : Member} (hq : q ∈ u.members) (unsettled : q.delivery.unsettled = true) : armTest u = u := by
  unfold armTest
  split
  · rfl
  · rename_i w hw
    rw [members_of_wave hw] at hq
    refine if_neg fun armed => ?_
    exact absurd (List.any_eq_false.1 armed.2 q hq) (not_not_intro unsettled)

/-- A member CLEARING keeps its wave from being ARMED, and from being DONE. -/
theorem tests_of_clearing (hm : u.member? r = some m) (clearing : m.delivery = .clearing) : doneTest (armTest u) = u := by
  rw [armTest_unsettled (member?_some hm).1 (by rw [clearing]; rfl), doneTest_open (waveOpen_of_member hm)]

/-- Settles O45: the failed DELIVER, REFRESH and read-back, and the end of a reloaded robot's transaction. -/
theorem endClosesAFailedTransaction : Obligations.EndClosesAFailedTransaction := by
  intro s l t x running clear txn phase
  have run := exec_endSent (t := t) running clear txn phase
  have freed := freed_endedAt s l t
  refine ⟨fun stale notGo => ?_, fun fresh => ⟨fun r m kind hm flight => ?_, fun r kind stillOpen => ?_,
    fun r a m round kind hm stop => ?_⟩⟩
  · rw [stale, judgeEnd_stale notGo] at run
    exact run
  · have here := (freed.member? r).trans hm
    have robot := (member?_some hm).2.2
    have judged : judgeEnd (s.endedAt l t) l (.deliver r) false (.failed false) =
        doneTest (armTest ((s.endedAt l t).beginClear m false)) := by
      simp only [judgeEnd, endDeliver, here, flight]
      rfl
    have member : ((s.endedAt l t).beginClear m false).member? r =
        some { m with delivery := .clearing, clearLineReset := false, stop := .none } := by
      rw [beginClear_eq robot, member?_congr (State.modLine_wave ..)]
      refine (member?_modMember_same _ r ?_).trans ?_
      · exact fun _ => ⟨rfl, rfl⟩
      · rw [member?_modRobot, here]
        rfl
    rw [kind, fresh, judged, tests_of_clearing member rfl, beginClear_eq robot, freed.robot] at run
    exact run
  · have judged : judgeEnd (s.endedAt l t) l (.read r true false) false (.failed false) = s.endedAt l t :=
      doneTest_open (waveOpen_congr freed.wave stillOpen)
    rw [kind, fresh, judged] at run
    exact run
  · have here := (freed.member? r).trans hm
    have robot := (member?_some hm).2.2
    have waits : (s.endedAt l t).readBack? r = some (m, round) := by
      simp only [State.readBack?, here, stop, StopPhase.readRound?]
    have judged : judgeEnd (s.endedAt l t) l (.read r a true) false (.failed false) =
        doneTest ((s.endedAt l t).concludeLost r .none) := by
      simp only [judgeEnd, judgeRead, waits, robot]
      rfl
    rw [kind, fresh, judged] at run
    obtain ⟨ends, event⟩ := concludeLost_ends (why := .none) here
    obtain ⟨state, idle⟩ := concludeLost_engine (s := s.endedAt l t) (r := r) (why := .none) l
    refine endsIn_doneTest run ⟨state.trans freed.state, idle.trans freed.txn, ?_, ?_⟩
    · exact ends.of_alike freed.toAlike
    · rw [event, freed.events]

end Sys2Proof.Machine
end

section
/-!
O50: a poll that decides its member.
-/

namespace Sys2Proof.Machine

variable {s u v : State} {l : LineNo} {t : Time} {x : Txn} {r : RobotNo} {m : Member} {w : Wave}

/-- The end of a POLL of a MOVING member is judged by R96, and the wave goes on. -/
theorem judgeEnd_poll (hw : u.wave = some w) (hm : u.member? r = some m) (moving : (u.robot r).slot = .moving)
    (code : Byte) (posOk : Bool) (fault : Byte) (wave remaining : Half) :
    judgeEnd u l (.poll r) false (.polled code posOk fault wave remaining) =
      doneTest (judgePollAnswer u m w.number code posOk fault wave remaining) := by
  simp only [judgeEnd, judgePoll, hw, hm]
  rw [if_pos moving]
  rfl

/-- The failure of a POLL of a MOVING member decides it LOST (R101). -/
theorem judgeEnd_pollFailed (hw : u.wave = some w) (hm : u.member? r = some m) (moving : (u.robot r).slot = .moving) :
    judgeEnd u l (.poll r) false (.failed false) = doneTest (u.concludeLost r .none) := by
  simp only [judgeEnd, judgePoll, hw, hm]
  rw [if_pos moving]
  rfl

/-- The answers of a poll that show the robot stopped or elsewhere, each with its reason (R99). -/
theorem judgePollAnswer_stalls {code : Byte} {posOk : Bool} {n wave : Half} {why : Reason}
    (h : (code = 4 ∧ posOk = false ∧ wave = n ∧ why = .mismatch) ∨ ((code = 5 ∨ code = 6) ∧ wave = n ∧ why = .none) ∨
      (code = 0 ∧ wave = n ∧ why = .lostSeg) ∨ (code ≠ 1 ∧ wave ≠ n ∧ why = .lostSeg)) (fault : Byte) (remaining : Half) :
    judgePollAnswer u m n code posOk fault wave remaining = judgePollStall u m fault why := by
  rcases h with ⟨rfl, rfl, rfl, rfl⟩ | ⟨rfl | rfl, rfl, rfl⟩ | ⟨rfl, rfl, rfl⟩ | ⟨other, away, rfl⟩
  · exact (if_neg (by decide)).trans (if_neg (not_not_intro rfl))
  · exact (if_neg (by decide)).trans (if_neg (not_not_intro rfl))
  · exact (if_neg (by decide)).trans (if_neg (not_not_intro rfl))
  · exact (if_neg (by decide)).trans (if_neg (not_not_intro rfl))
  · exact (if_neg other).trans (if_pos away)

/-- A member found stopped or elsewhere is STALLED, its robot's fault code stored (R99). -/
theorem judgePollStall_ends (hm : u.member? r = some m) (fault : Byte) (why : Reason) :
    EndsUncertain (u.modRobot r fun b => { b with fault := fault }) (judgePollStall u m fault why) r m .stalled why ∧
      (judgePollStall u m fault why).events.get .stall = (u.events.get .stall).raised (halfOf r.val) := by
  obtain ⟨-, -, rfl⟩ := member?_some hm
  exact concludeStalled_ends (s := u.modRobot m.robot fun b => { b with fault := fault }) hm

/-- Settles O50: an arrival, the answers of R99, and a poll without a valid answer. -/
theorem pollDecides : Obligations.PollDecides := by
  intro s l t x since r m w fault remaining kind fresh hw hm moving
  refine ⟨fun an => ?_, fun c fails => ?_⟩
  · have alike := alike_answeredAt s l t
    have hw' := alike.wave.trans hw
    have hm' := (alike.member? r).trans hm
    have moving' : ((s.answeredAt l t).robot r).slot = .moving := by rw [alike.robot]; exact moving
    have run {code : Byte} (hc : code.toNat ≤ 6) (posOk : Byte) (wave : Half) :
        exec (.answerPoll l t code posOk fault wave remaining) s = .next (doneTest
          (judgePollAnswer (s.answeredAt l t) m w.number code (readBool posOk) fault wave remaining)) := by
      rw [exec_answerPoll an hc, kind, fresh, judgeEnd_poll hw' hm' moving']
    refine ⟨fun posOk ok => ?_, fun code posOk wave why cases => ?_⟩
    · have arrival : judgePollAnswer (s.answeredAt l t) m w.number 4 (readBool posOk) fault w.number remaining =
          (s.answeredAt l t).arrive m :=
        (if_neg (by decide)).trans ((if_neg (not_not_intro rfl)).trans (if_pos (decide_eq_true ok)))
      have answered := run (code := 4) (by decide) posOk w.number
      rw [arrival] at answered
      exact endsIn_doneTest answered ((arrive_arrives hm').of_alike alike)
    · have hc : code.toNat ≤ 6 := by
        rcases cases with ⟨rfl, -⟩ | ⟨rfl | rfl, -⟩ | ⟨rfl, -⟩ | ⟨hc, -⟩
        iterate 4 decide
        exact hc
      have answered := run hc posOk wave
      rw [judgePollAnswer_stalls (why := why)] at answered
      · obtain ⟨ends, event⟩ := judgePollStall_ends hm' fault why
        exact endsIn_doneTest answered ⟨ends.of_alike (alike.modRobot r _), event⟩
      · rcases cases with ⟨code, rfl, wave, why⟩ | h | h | ⟨-, h⟩
        · exact .inl ⟨code, rfl, wave, why⟩
        · exact .inr (.inl h)
        · exact .inr (.inr (.inl h))
        · exact .inr (.inr (.inr h))
  · obtain ⟨u, freed, run⟩ := exec_failsLast fails
    have here := (freed.member? r).trans hm
    have moving' : (u.robot r).slot = .moving := by rw [freed.robot]; exact moving
    rw [kind, fresh, judgeEnd_pollFailed (freed.wave.trans hw) here moving'] at run
    obtain ⟨ends, event⟩ := concludeLost_ends (why := .none) here
    obtain ⟨state, txn⟩ := concludeLost_engine (s := u) (r := r) (why := .none) l
    refine endsIn_doneTest run ⟨state.trans freed.state, txn.trans freed.txn, ends.of_alike freed.toAlike, ?_⟩
    rw [event, freed.events]

end Sys2Proof.Machine
end

section
/-!
O52: a read-back answered.
-/

namespace Sys2Proof.Machine

variable {b s u : State} {l : LineNo} {t : Time} {x : Txn} {r : RobotNo} {m : Member} {code : Byte} {posOk : Bool}
  {round : Nat} {c : Pair}

/-! ### A robot found at rest -/

/-- What a robot found at rest leaves on its line: the lists, and the poll cycle without it (R95, R106). -/
theorem concludeFound_lists (robot : m.robot = r) : let e := (concludeFound b m c).line (b.robot r).static.line
    e.urgent = (b.line (b.robot r).static.line).urgent ∧ e.normal = (b.line (b.robot r).static.line).normal ∧
      e.cycle = (b.line (b.robot r).static.line).cycle.filter fun p => p.robot ≠ r := by
  have lists (o : Ending) (why : Reason) : let e := (b.conclude r o why).line (b.robot r).static.line
      e.urgent = (b.line (b.robot r).static.line).urgent ∧ e.normal = (b.line (b.robot r).static.line).normal ∧
        e.cycle = (b.line (b.robot r).static.line).cycle.filter fun p => p.robot ≠ r := by
    rw [conclude_line, if_pos rfl]
    exact ⟨rfl, rfl, rfl⟩
  subst robot
  unfold concludeFound
  split
  · rw [concludeAtRest_line]; exact lists _ _
  · split
    · rw [arrive_line rfl]; exact lists _ _
    · rw [concludeUncertain_line]; exact lists _ _

/-- The lists of the line of a robot found at rest, which it has left (R106, log entry 12). -/
theorem judgeAtRest_lists (robot : m.robot = r) : let e := (judgeAtRest b m c).line (b.robot r).static.line
    e.urgent = (b.line (b.robot r).static.line).urgent.filter (fun y => y.robot ≠ r) ∧
      e.normal = (b.line (b.robot r).static.line).normal.filter (fun y => y.robot ≠ r) ∧
      e.cycle = (b.line (b.robot r).static.line).cycle.filter fun y => y.robot ≠ r := by
  obtain ⟨urgent, normal, cycle⟩ := concludeFound_lists (b := b) (c := c) robot
  have here : (concludeFound b m c).lineOf r = (b.robot r).static.line :=
    congrArg RobotStatic.line ((Judged.concludeFound m c).static r)
  subst robot
  dsimp only [judgeAtRest, State.leaveLists]
  rw [line_modLine, if_pos here, urgent, normal, cycle]
  exact ⟨rfl, rfl, by simp⟩

theorem judgeAtRest_cycle (robot : m.robot = r) :
    ∀ p ∈ ((judgeAtRest b m c).line (b.robot r).static.line).cycle, p.robot ≠ r := by
  obtain ⟨-, -, cycle⟩ := judgeAtRest_lists (b := b) (c := c) robot
  intro p hp
  rw [cycle] at hp
  simpa using (List.mem_filter.1 hp).2

theorem alike_judgeAtRest : Alike (concludeFound b m c) (judgeAtRest b m c) := by
  unfold judgeAtRest State.leaveLists
  exact .modLine _ _

theorem atStart_iff : m.plan.start.map Position.steps = some c ↔ ∃ p, m.plan.start = some p ∧ p.steps = c := by
  rw [Option.map_eq_some_iff]

/-- Found at its start steps, a robot returns to its rest state (R106). -/
theorem judgeAtRest_atStart (hm : b.member? r = some m) (start : ∃ p, m.plan.start = some p ∧ p.steps = c) :
    EndsAtRest b (judgeAtRest b m c) r (m.decided .haltedAtStart .none) .haltedAtStart .none := by
  obtain ⟨-, -, rfl⟩ := member?_some hm
  have found : concludeFound b m c = b.concludeAtRest m.robot .haltedAtStart .none := if_pos (atStart_iff.2 start)
  exact (concludeAtRest_ends hm (by decide)).congr (.refl b) (found ▸ alike_judgeAtRest) (judgeAtRest_cycle rfl)

/-- Found at its target steps, a robot has arrived (R106). -/
theorem judgeAtRest_arrived (hm : b.member? r = some m) (start : ¬∃ p, m.plan.start = some p ∧ p.steps = c)
    (target : m.plan.target.steps = c) : Arrives b (judgeAtRest b m c) r m := by
  obtain ⟨-, -, rfl⟩ := member?_some hm
  have found : concludeFound b m c = b.arrive m := (if_neg (mt atStart_iff.1 start)).trans (if_pos target)
  exact (arrive_arrives hm).congr (.refl b) (found ▸ alike_judgeAtRest) (judgeAtRest_cycle rfl)

/-- Found elsewhere, a robot's position is unknown (R106). -/
theorem judgeAtRest_unknown (hm : b.member? r = some m) (start : ¬∃ p, m.plan.start = some p ∧ p.steps = c)
    (target : m.plan.target.steps ≠ c) : EndsUncertain b (judgeAtRest b m c) r m .haltedUnknown .none ∧
      (judgeAtRest b m c).events.get .stall = b.events.get .stall := by
  obtain ⟨-, -, rfl⟩ := member?_some hm
  have found : concludeFound b m c = b.concludeUncertain m.robot .haltedUnknown .none :=
    (if_neg (mt atStart_iff.1 start)).trans (if_neg target)
  refine ⟨(concludeUncertain_ends hm (by decide)).congr (.refl b) (found ▸ alike_judgeAtRest) (judgeAtRest_cycle rfl), ?_⟩
  show (concludeFound b m c).events.get .stall = _
  rw [found, concludeUncertain_events (by decide)]

/-! ### The outcomes of a read-back by its state code -/

theorem judgeReadBack_atRest (h : code = 0 ∨ code = 4 ∧ posOk = true) :
    judgeReadBack b m round code posOk c = judgeAtRest b m c := by
  rcases h with rfl | ⟨rfl, rfl⟩ <;> rfl

theorem judgeReadBack_stalled {why : Reason} (robot : m.robot = r)
    (h : code = 4 ∧ posOk = false ∧ why = .mismatch ∨ (code = 5 ∨ code = 6) ∧ why = .none) :
    judgeReadBack b m round code posOk c = b.concludeStalled r why := by
  subst robot
  rcases h with ⟨rfl, rfl, rfl⟩ | ⟨rfl | rfl, rfl⟩ <;> rfl

theorem judgeReadBack_armed (robot : m.robot = r) : judgeReadBack b m round 1 posOk c =
    (b.modMember r fun m => { m with stop := .clear }).offerClear r := by
  subst robot; rfl

theorem judgeReadBack_moving (robot : m.robot = r) (h : code = 2 ∨ code = 3) : judgeReadBack b m round code posOk c =
    if round = 1 then (b.modMember r fun m => { m with stop := .halt 2 }).offerHalt r
    else b.concludeUncertain r .haltedUnknown .none := by
  subst robot
  rcases h with rfl | rfl <;> rfl

/-! ### A member that goes on waiting -/

/-- A member that waits for the next phase of its read-back; nothing else but its line changes. -/
theorem modMember_waits (hm : b.member? r = some m) (ph : StopPhase) (k : LineNo) (f : Line → Line) :
    let v := (b.modMember r fun m => { m with stop := ph }).modLine k f
    v.robots = b.robots ∧ v.zones = b.zones ∧ v.events = b.events ∧ v.member? r = some { m with stop := ph } := by
  refine ⟨State.modMember_robots .., State.modMember_zones .., State.modMember_events .., ?_⟩
  refine (member?_congr (State.modLine_wave ..) r).trans ((member?_modMember_same b r ?_).trans ?_)
  · exact fun _ => ⟨rfl, rfl⟩
  · rw [hm]; rfl

/-- What a line that is not DOWN takes is offered to it. -/
theorem offered_urgent (b : State) (k : LineNo) (offer : List UrgentEntry → List UrgentEntry) :
    let v := b.modLine k fun e => if e.state = .down then e else { e with urgent := offer e.urgent }
    (v.line k).state ≠ .down → (v.line k).urgent = offer (b.line k).urgent := by
  dsimp only
  rw [line_modLine, if_pos rfl]
  split
  · rename_i down; exact fun up => absurd down up
  · exact fun _ => rfl

/-- A CLEAR offered for a waiting member goes to its robot's line. -/
theorem offerClear_waits (f : Member → Member) : let v := (b.modMember r f).offerClear r
    (v.line (b.robot r).static.line).state ≠ .down →
      (v.line (b.robot r).static.line).urgent = offerClearTo (b.line (b.robot r).static.line).urgent r := by
  have here : (b.modMember r f).lineOf r = (b.robot r).static.line := by rw [State.lineOf, robot_modMember]
  have offered := offered_urgent (b.modMember r f) (b.robot r).static.line fun urgent => offerClearTo urgent r
  rw [line_modMember] at offered
  dsimp only [State.offerClear]
  rw [here]
  exact offered

theorem offerHalt_waits (f : Member → Member) : let v := (b.modMember r f).offerHalt r
    (v.line (b.robot r).static.line).state ≠ .down →
      (v.line (b.robot r).static.line).urgent = offerHaltTo (b.line (b.robot r).static.line).urgent r := by
  have here : (b.modMember r f).lineOf r = (b.robot r).static.line := by rw [State.lineOf, robot_modMember]
  have offered := offered_urgent (b.modMember r f) (b.robot r).static.line fun urgent => offerHaltTo urgent r
  rw [line_modMember] at offered
  dsimp only [State.offerHalt]
  rw [here]
  exact offered

/-- The end of the READ of a read-back that a member waits for (R105). -/
theorem judgeEnd_readBack (hm : b.member? r = some m) (stop : m.stop = .read round) (refresh : Bool) (fault : Byte) :
    judgeEnd b l (.read r refresh true) false (.statused code posOk fault c) =
      doneTest (judgeReadBack (b.storeStatus r fault c) m round code posOk c) := by
  have waits : b.readBack? r = some (m, round) := by simp only [State.readBack?, hm, stop, StopPhase.readRound?]
  simp only [judgeEnd, judgeRead, waits]
  rfl

/-- The lists of a line are those before the answer. -/
theorem answeredAt_lists (s : State) (l : LineNo) (t : Time) (k : LineNo) :
    ((s.answeredAt l t).line k).urgent = (s.line k).urgent ∧ ((s.answeredAt l t).line k).normal = (s.line k).normal ∧
      ((s.answeredAt l t).line k).cycle = (s.line k).cycle := by
  rw [State.answeredAt, line_modLine]
  split <;> exact ⟨rfl, rfl, rfl⟩

/-- Settles O52: the outcomes of a read-back by the state code of its answer. -/
theorem readBackAnswered : Obligations.ReadBackAnswered := by
  intro s l t x since r m round refresh code posOk fault wave hub elbow ex kind fresh hm stop hc limit
  have run := exec_answerStatus ex hc limit posOk fault wave hub elbow
  have near := (alike_answeredAt s l t)
  have judged := judgeEnd_readBack (l := l) (code := code) (posOk := readBool posOk) (c := ⟨hub, elbow⟩)
    ((near.member? r).trans hm) stop refresh fault
  rw [kind, fresh, judged] at run
  have robot := (member?_some hm).2.2
  -- The state that the answer is judged in, alike to the one the statement starts from.
  have alike : Alike (s.modRobot r fun b => { b with reported := ⟨hub, elbow⟩, reportedValid := true, fault := fault })
      ((s.answeredAt l t).storeStatus r fault ⟨hub, elbow⟩) := near.modRobot r _
  have line : (((s.answeredAt l t).storeStatus r fault ⟨hub, elbow⟩).robot r).static.line = (s.robot r).static.line := by
    rw [alike.robot, robot_modRobot, if_pos rfl]
  obtain ⟨urgent, normal, cycle⟩ := answeredAt_lists s l t (s.robot r).static.line
  have here : ((s.answeredAt l t).storeStatus r fault ⟨hub, elbow⟩).member? r = some m := (near.member? r).trans hm
  have zones : ((s.answeredAt l t).storeStatus r fault ⟨hub, elbow⟩).zones = s.zones := rfl
  have events : ((s.answeredAt l t).storeStatus r fault ⟨hub, elbow⟩).events = s.events := rfl
  have lines : ((s.answeredAt l t).storeStatus r fault ⟨hub, elbow⟩).line = (s.answeredAt l t).line := rfl
  generalize (s.answeredAt l t).storeStatus r fault ⟨hub, elbow⟩ = b at *
  have found : code = 0 ∨ code = 4 ∧ posOk ≠ 0 → code = 0 ∨ code = 4 ∧ readBool posOk = true :=
    Or.imp_right fun h => ⟨h.1, decide_eq_true h.2⟩
  refine endsIn_doneTest run ⟨fun rest => ?_, fun rest start => ?_, fun rest start target => ?_,
    fun rest start target => ?_, fun four bad => ?_, fun stalled => ?_, fun armed => ?_, fun moving first => ?_,
    fun moving second => ?_⟩
  · have lists := judgeAtRest_lists (b := b) (c := ⟨hub, elbow⟩) robot
    rw [line, lines, urgent, normal, cycle] at lists
    rw [judgeReadBack_atRest (found rest)]
    exact lists
  · rw [judgeReadBack_atRest (found rest)]
    exact (judgeAtRest_atStart here start).of_alike alike
  · rw [judgeReadBack_atRest (found rest)]
    exact (judgeAtRest_arrived here start target).of_alike alike
  · obtain ⟨ends, event⟩ := judgeAtRest_unknown here start target
    rw [judgeReadBack_atRest (found rest)]
    exact ⟨ends.of_alike alike, by rw [event, events]⟩
  · obtain ⟨ends, event⟩ := concludeStalled_ends (why := .mismatch) here
    rw [judgeReadBack_stalled robot (.inl ⟨four, by rw [bad]; rfl, rfl⟩)]
    exact ⟨ends.of_alike alike, by rw [event, events]⟩
  · obtain ⟨ends, event⟩ := concludeStalled_ends (why := .none) here
    rw [judgeReadBack_stalled robot (.inr ⟨stalled, rfl⟩)]
    exact ⟨ends.of_alike alike, by rw [event, events]⟩
  · obtain ⟨robots, zones', events', member⟩ := modMember_waits here .clear
      ((b.modMember r fun m => { m with stop := .clear }).lineOf r) fun e =>
        if e.state = .down then e else { e with urgent := offerClearTo e.urgent r }
    have offered := offerClear_waits (b := b) (r := r) fun m => { m with stop := .clear }
    rw [line, lines, urgent] at offered
    rw [armed, judgeReadBack_armed robot]
    exact ⟨⟨robots.trans alike.robots, zones'.trans zones, events'.trans events, member⟩, offered⟩
  · obtain ⟨robots, zones', events', member⟩ := modMember_waits here (.halt 2)
      ((b.modMember r fun m => { m with stop := .halt 2 }).lineOf r) fun e =>
        if e.state = .down then e else { e with urgent := offerHaltTo e.urgent r }
    have offered := offerHalt_waits (b := b) (r := r) fun m => { m with stop := .halt 2 }
    rw [line, lines, urgent] at offered
    rw [judgeReadBack_moving robot moving, if_pos first]
    exact ⟨⟨robots.trans alike.robots, zones'.trans zones, events'.trans events, member⟩, offered⟩
  · rw [judgeReadBack_moving robot moving, if_neg second]
    exact ⟨(concludeUncertain_ends here (by decide)).of_alike alike, by
      rw [concludeUncertain_events (by decide), events]⟩

end Sys2Proof.Machine
end

section
/-!
SUPPORT. Values brought into their ranges, and a table after a run of records is written.
-/

namespace Sys2Proof.Machine

/-! ### Clamped values -/

theorem clampNat_bounds {lo hi : Nat} (h : lo ≤ hi) (x : Nat) : lo ≤ clampNat lo hi x ∧ clampNat lo hi x ≤ hi := by
  unfold clampNat
  split_ifs <;> omega

theorem clampInt_bounds {lo hi : Int} (h : lo ≤ hi) (x : Int) : lo ≤ clampInt lo hi x ∧ clampInt lo hi x ≤ hi := by
  unfold clampInt
  split_ifs <;> omega

theorem clampHalf_bounds {lo hi : Nat} (x : Half) (h : lo ≤ hi := by decide) (small : hi < 65536 := by decide) :
    lo ≤ (clampHalf lo hi x).toNat ∧ (clampHalf lo hi x).toNat ≤ hi := by
  have bounds := clampNat_bounds h x.toNat
  rw [clampHalf, halfOf_toNat (by omega)]
  exact bounds

theorem clampByte_bounds {lo hi : Nat} (x : Byte) (h : lo ≤ hi := by decide) (small : hi < 256 := by decide) :
    lo ≤ (clampByte lo hi x).toNat ∧ (clampByte lo hi x).toNat ≤ hi := by
  have bounds := clampNat_bounds h x.toNat
  rw [clampByte, byteOf, BitVec.toNat_ofNat, Nat.mod_eq_of_lt (by omega)]
  exact bounds

theorem clampWord_toNat {lo hi : Nat} (x : Word) (h : lo ≤ hi := by decide) (small : hi < 4294967296 := by decide) :
    (clampWord lo hi x).toNat = clampNat lo hi x.toNat := by
  have bounds := clampNat_bounds h x.toNat
  rw [clampWord, BitVec.toNat_ofNat, Nat.mod_eq_of_lt (by omega)]

theorem clampWord_bounds {lo hi : Nat} (x : Word) (h : lo ≤ hi := by decide) (small : hi < 4294967296 := by decide) :
    lo ≤ (clampWord lo hi x).toNat ∧ (clampWord lo hi x).toNat ≤ hi := by
  rw [clampWord_toNat x h small]
  exact clampNat_bounds h x.toNat

theorem clampKnot_bounds (h : Half) : -8192 ≤ (clampKnot h).toInt ∧ (clampKnot h).toInt ≤ 8191 := by
  have bounds := clampInt_bounds (lo := -8192) (hi := 8191) (by decide) h.toInt
  rw [clampKnot, BitVec.toInt_ofInt_eq_self (by decide) (by omega) (by omega)]
  exact bounds

/-! ### Clamped records -/

@[simp] theorem clampCurve_getElem (k : Curve) (i : Fin 17) : (clampCurve k)[i] = clampKnot k[i] := mapTable_getElem_fin ..

theorem clampCurve_ok (c : Curve) : CurveOk (clampCurve c) := fun i => by
  rw [clampCurve_getElem]
  exact clampKnot_bounds _

theorem clampProfile_ok (p : Profile) : ProfileOk (clampProfile p) :=
  ⟨clampHalf_bounds _, clampHalf_bounds _, clampHalf_bounds _, (clampHalf_bounds _).2, clampWord_bounds _⟩

theorem clampTiming_ok (t : Timing) : TimingOk (clampTiming t) :=
  ⟨clampHalf_bounds _, clampHalf_bounds _, clampHalf_bounds _, clampHalf_bounds _, (clampHalf_bounds _).2,
    clampHalf_bounds _, clampByte_bounds _, clampByte_bounds _, clampHalf_bounds _, clampByte_bounds _⟩

/-- A loaded timebase keeps its running period (R151). -/
theorem Epoch.loaded_ok {e : Epoch} (h : EpochOk e) (m : EpochMode) (period window : Word) :
    EpochOk (e.loaded m period window) := by
  obtain ⟨-, -, running⟩ := h
  have small := (clampWord 10000 1000000 period).isLt
  exact ⟨clampWord_bounds _, (clampWord_bounds _ (Nat.zero_le _) (by omega)).2, running⟩

/-! ### A run written to a table -/

/-- An entry after a run is written from an index on. -/
theorem writeRun_getElem {α : Type} {n : Nat} (v : Vector α n) (first : Nat) (as : List α) (i : Fin n) :
    (writeRun v first as)[i] = if first ≤ i.val then as.getD (i.val - first) v[i] else v[i] := by
  induction as generalizing v first with
  | nil => simp [writeRun]
  | cons a as ih =>
    rw [writeRun, ih]
    by_cases inside : first < n
    · rw [index?_of_lt inside]
      by_cases here : first = i.val
      · subst here; simp
      · by_cases later : first ≤ i.val
        · rw [if_pos later, if_pos (by omega), show i.val - first = i.val - (first + 1) + 1 by omega]
          simp [here]
        · rw [if_neg later, if_neg (by omega)]
          simp [here]
    · rw [index?_of_le (by omega), if_neg (by omega), if_neg (by omega)]

/-- A law of every element of a list, and of the default, holds of what is read from the list. -/
theorem getD_all {α : Type} {P : α → Prop} {as : List α} {d : α} {i : Nat} (run : ∀ a ∈ as, P a) (default : P d) :
    P (as.getD i d) := by
  rw [List.getD_eq_getElem?_getD]
  cases h : as[i]? with
  | none => exact default
  | some a => exact run a (List.mem_of_getElem? h)

/-- A law of each entry holds of a table after a run of records that obey it. -/
theorem writeRun_all {α : Type} {n : Nat} {P : α → Prop} {v : Vector α n} {first : Nat} {as : List α}
    (table : ∀ i : Fin n, P v[i]) (run : ∀ a ∈ as, P a) (i : Fin n) : P (writeRun v first as)[i] := by
  rw [writeRun_getElem]
  split
  · exact getD_all run (table i)
  · exact table i

/-- A line after a LOAD of timing records: only its timing may change (R137). -/
theorem loadTimings_line (s : State) (first count : Nat) (records : List (List Byte)) (l : LineNo) :
    (loadTimings s first count records).state.line l =
      { s.line l with
        timing :=
          if first ≤ l.val then ((records.map rawTiming).map clampTiming).getD (l.val - first) (s.line l).timing
          else (s.line l).timing } := by
  refine (mapTable_getElem_fin _ s.lines l).trans ?_
  split <;> rfl

end Sys2Proof.Machine
end

section
/-!
O6: the ranges and capacities that every step keeps.
-/

namespace Sys2Proof.Machine

/-! ### Ranges and capacities apart from the trunk port -/

/-- From `s` to `t` the class records, the deferred list and the loaded tables stay in order. -/
structure KeepsRanges (s t : State) : Prop where
  events : EventsOk s.events → EventsOk t.events
  deferred : DeferredOk s.deferred → DeferredOk t.deferred
  tables : TablesOk s → TablesOk t

/-- The tables of a state depend on the Calibration Store, the timing records and the timebase alone. -/
theorem tablesOk_congr {s t : State} (curves : t.curves = s.curves) (profiles : t.profiles = s.profiles)
    (timing : ∀ l, (t.line l).timing = (s.line l).timing) (epoch : t.epoch = s.epoch) (h : TablesOk s) : TablesOk t := by
  obtain ⟨curvesOk, profilesOk, timingOk, epochOk⟩ := h
  refine ⟨by rw [curves]; exact curvesOk, fun p => ?_, fun l => by rw [timing]; exact timingOk l, by rw [epoch]; exact epochOk⟩
  have same : t.profile p = s.profile p := by simp only [State.profile, profiles]
  rw [same]
  exact profilesOk p

theorem deferredOk_filter {d : List Deferral} (h : DeferredOk d) (p : Deferral → Bool) : DeferredOk (d.filter p) :=
  ⟨(List.length_filter_le _ _).trans h.1, fun x hx => h.2 x (List.mem_filter.1 hx).1⟩

theorem deferredOk_nil : DeferredOk [] := ⟨Nat.zero_le _, fun _ hx => absurd hx List.not_mem_nil⟩

theorem resetEvents_ok : EventsOk Events.reset := fun c => by
  rw [reset_events]
  exact fun _ => ⟨rfl, rfl⟩

namespace KeepsRanges

variable {s t u : State}

theorem refl (s : State) : KeepsRanges s s := ⟨id, id, id⟩

theorem trans (h : KeepsRanges s t) (k : KeepsRanges t u) : KeepsRanges s u :=
  ⟨k.events ∘ h.events, k.deferred ∘ h.deferred, k.tables ∘ h.tables⟩

theorem ite {p : Prop} [Decidable p] {a b : State} (ha : KeepsRanges s a) (hb : KeepsRanges s b) :
    KeepsRanges s (if p then a else b) := by split <;> assumption

theorem of_onLine {l : LineNo} (h : OnLine l s t) : KeepsRanges s t where
  events ok := by
    obtain ⟨raised, e⟩ := h.events
    rw [e]
    exact ok.raises raised
  deferred := h.deferred
  tables := tablesOk_congr h.curves h.profiles h.timing h.epoch

theorem of_judged (h : Judged s t) : KeepsRanges s t := of_onLine (l := 0) (.of_judged h)

theorem raise (c : EventClass) (d : Half) : KeepsRanges s (s.raise c d) := of_judged (.raise c d)

theorem setTrunk (x : Trunk) : KeepsRanges s { s with trunk := x } := ⟨id, id, id⟩

/-! ### Requests -/

theorem withdraw (r : RobotNo) : KeepsRanges s (s.withdraw r) where
  events ok := by rw [withdraw_eq]; exact ok
  deferred ok := by rw [(withdraw_lists s r).2]; exact deferredOk_filter ok _
  tables := by rw [withdraw_eq]; exact id

theorem placeRecord (m : MoveRecord) : KeepsRanges s (s.placeRecord m) := (withdraw m.robot).trans ⟨id, id, id⟩

theorem withMover (r : RobotNo) (p : Byte) {f : Robot → ProfileNo → Served} (hf : ∀ b q, KeepsRanges s (f b q).state) :
    KeepsRanges s (withMover s r p f).state := by
  unfold Machine.withMover
  split
  · exact refl s
  · split
    · exact refl s
    · split
      · exact refl s
      · exact hf _ _

theorem withReachable (r : RobotNo) (h : KeepsRanges s t) : KeepsRanges s (withReachable s r t).state := by
  unfold Machine.withReachable
  split
  · exact refl s
  · split
    · exact refl s
    · exact h

theorem cancelRequest (r : RobotNo) : KeepsRanges s (cancelRequest s r).state := by
  unfold Machine.cancelRequest
  split
  · exact withdraw r
  · split
    · exact withdraw r
    · exact refl s

theorem flagsRequest (first last : Half) (op mask : Byte) : KeepsRanges s (flagsRequest s first last op mask).state := by
  unfold Machine.flagsRequest
  split
  · exact refl s
  · split
    · exact refl s
    · exact ⟨id, id, id⟩

/-- A commit empties both lists, and defers candidates within the capacity (R66, R69). -/
theorem commitRequest (a b c : Byte) : KeepsRanges s (commitRequest s a b c).state := by
  have emptied : KeepsRanges s { s with openWave := [], deferred := [] } := ⟨id, fun _ => deferredOk_nil, id⟩
  unfold Machine.commitRequest
  split
  · exact refl s
  · split
    · exact refl s
    · split
      · exact refl s
      · exact emptied.trans (of_judged (.commitCandidates _ _))

theorem abortRequest : KeepsRanges s (abortRequest s).state := by
  have aborted (w : Wave) : KeepsRanges s (Machine.abortRequest.aborted s w).state := by
    rw [aborted_state]
    exact of_judged (Judged.abortWave.trans Judged.doneTest)
  unfold Machine.abortRequest
  split
  · exact refl s
  · split
    · exact refl s
    · exact refl s
    all_goals exact aborted _

/-- A class that is taken is emptied (R179). -/
theorem takeRequest : KeepsRanges s (takeRequest s).state := by
  unfold Machine.takeRequest
  split
  · exact refl s
  · refine ⟨fun ok d => ?_, id, id⟩
    rw [Events.get_put]
    split
    · exact fun _ => ⟨rfl, rfl⟩
    · exact ok d

theorem resetNamed (mask : Byte) (l : LineNo) : KeepsRanges s (resetNamed s mask l).1 := by
  unfold Machine.resetNamed
  split
  · exact of_onLine OnLine.resetLine
  · exact refl s

theorem lineResetRequest (mask : Byte) : KeepsRanges s (lineResetRequest s mask).state :=
  (((resetNamed mask 0).trans (resetNamed mask 1)).trans (resetNamed mask 2)).trans (resetNamed mask 3)

/-! ### Loads -/

theorem loadRobots (first count : Nat) (records : List (List Byte)) :
    KeepsRanges s (loadRobots s first count records).state := by
  rcases loadRobots_state s first count records with e | ⟨-, -, sel, e⟩ <;> rw [e]
  · exact refl s
  · refine KeepsRanges.trans ?_ (of_judged (.settle sel))
    rw [applyRobots_eq]
    refine ⟨id, fun ok => ?_, tablesOk_congr rfl rfl (fun l => ?_) rfl⟩
    · show DeferredOk (applyRobots s _).deferred
      rw [(applyRobots_lists s _).2]
      exact deferredOk_filter ok _
    · rw [line_modLines]; rfl

theorem loadZones (first count : Nat) (records : List (List Byte)) :
    KeepsRanges s (loadZones s first count records).state := by
  rcases loadZones_state s first count records with e | ⟨ms, sel, -, e⟩ <;> rw [e]
  · exact refl s
  · have written : KeepsRanges s { s with zones := mapTable (withMembers s first ms) s.zones } := ⟨id, id, id⟩
    exact written.trans (of_judged (.settle sel))

theorem loadCurves (first count : Nat) (records : List (List Byte)) :
    KeepsRanges s (loadCurves s first count records).state := by
  refine ⟨id, id, fun ⟨curves, rest⟩ => ⟨writeRun_all curves fun k hk => ?_, rest⟩⟩
  obtain ⟨raw, -, rfl⟩ := List.mem_map.1 hk
  exact clampCurve_ok raw

theorem loadProfiles (first count : Nat) (records : List (List Byte)) :
    KeepsRanges s (loadProfiles s first count records).state := by
  refine ⟨id, id, fun ⟨curves, profiles, rest⟩ => ⟨curves, writeRun_all profiles fun p hp => ?_, rest⟩⟩
  obtain ⟨raw, -, rfl⟩ := List.mem_map.1 hp
  exact clampProfile_ok raw

theorem loadTimings (first count : Nat) (records : List (List Byte)) :
    KeepsRanges s (loadTimings s first count records).state := by
  refine ⟨id, id, fun ⟨curves, profiles, timing, epoch⟩ => ⟨curves, profiles, fun l => ?_, epoch⟩⟩
  rw [loadTimings_line]
  split
  · refine getD_all (fun t ht => ?_) (timing l)
    obtain ⟨raw, -, rfl⟩ := List.mem_map.1 ht
    exact clampTiming_ok raw
  · exact timing l

theorem loadEpochRecord (count : Nat) (bs : List Byte) : KeepsRanges s (loadEpochRecord s count bs).state := by
  unfold Machine.loadEpochRecord
  split
  · exact refl s
  · exact ⟨id, id, fun ⟨curves, profiles, timing, epoch⟩ => ⟨curves, profiles, timing, Epoch.loaded_ok epoch _ _ _⟩⟩

theorem serveLoad (table : Byte) (first count : Half) (records : List Byte) :
    KeepsRanges s (serveLoad s table first count records).state := by
  unfold Machine.serveLoad
  split
  · exact refl s
  · split
    · exact refl s
    · split
      · exact refl s
      · unfold Machine.loadTable
        split
        · exact loadRobots _ _ _
        · exact loadCurves _ _ _
        · exact loadProfiles _ _ _
        · exact loadZones _ _ _
        · exact loadTimings _ _ _
        · exact loadEpochRecord _ _

theorem perform (q : Request) : KeepsRanges s (perform s q).state := by
  cases q with
  | move =>
    refine withMover _ _ fun b p => ?_
    split
    · exact refl s
    · exact placeRecord _
  | retrace =>
    refine withMover _ _ fun b p => ?_
    split
    · exact refl s
    · exact placeRecord _
  | home => exact withMover _ _ fun _ _ => placeRecord _
  | cancel => exact cancelRequest _
  | halt =>
    exact withReachable _ (ite (of_judged ((Judged.stopMember _ _).trans (.offerHalt _))) (of_judged (.offerHalt _)))
  | refresh => exact withReachable _ (of_judged (.offerRead _ _ _))
  | report | status | reset => exact refl s
  | load => exact serveLoad _ _ _ _
  | read table first count =>
    show KeepsRanges s (serveRead s table first count).state
    rw [Serves.serveRead_state]
    exact refl s
  | flags => exact flagsRequest _ _ _ _
  | commit => exact commitRequest _ _ _
  | abort => exact abortRequest
  | take => exact takeRequest
  | mask => exact ⟨id, id, id⟩
  | lineReset => exact lineResetRequest _

theorem serve (f : Frame) : KeepsRanges s (serve s f).state := by
  unfold Machine.serve
  split
  · exact refl s
  · exact perform _

/-! ### The port -/

theorem dispatchNext : KeepsRanges s (dispatchNext s) := by
  unfold Machine.dispatchNext
  split
  · exact ((setTrunk _).trans (serve _)).trans (setTrunk _)
  · exact refl s
  · exact refl s

theorem acceptFrame (f : Frame) : KeepsRanges s (acceptFrame s f) := by
  refine KeepsRanges.trans ?_ dispatchNext
  unfold Machine.offerFrame
  exact ite (setTrunk _) ((setTrunk _).trans (raise _ _))

theorem badCheck : KeepsRanges s (badCheck s) := (setTrunk _).trans (raise _ _)

theorem skipFrame : KeepsRanges s (skipFrame s) := badCheck.trans (setTrunk _)

/-- Controller reset empties the deferred list and every class, and keeps the tables (R170). -/
theorem controllerReset : KeepsRanges s (controllerReset s) := by
  obtain ⟨-, -, -, curves, profiles, -, deferred, -, -, epoch, -, events⟩ := controllerReset_rest s
  refine ⟨fun _ => ?_, fun _ => ?_, tablesOk_congr curves profiles (fun l => ?_) epoch⟩
  · rw [events]; exact resetEvents_ok
  · rw [deferred]; exact deferredOk_nil
  · rw [controllerReset_line]; rfl

theorem replyEnds : KeepsRanges s (replyEnds s) := by
  unfold Machine.replyEnds
  split
  · exact refl s
  · exact ((ite controllerReset (refl s)).trans (setTrunk _)).trans dispatchNext

end KeepsRanges

/-! ### The inbound queue -/

/-- The inbound queue holds at most 8 frames, each of at most 512 payload bytes (R154, R157). -/
def QueueOk (q : List Frame) : Prop := q.length ≤ Config.queueDepth ∧ ∀ f ∈ q, f.payload.length ≤ Config.payloadMax

section

variable {s : State}

theorem TrunkOk.queueOk {t : Trunk} (h : TrunkOk t) : QueueOk t.queue := ⟨h.1, h.2.1⟩

theorem TrunkOk.of_empty {t : Trunk} (h : t.queue = []) : TrunkOk t := by
  unfold TrunkOk
  rw [h]
  exact ⟨Nat.zero_le _, fun _ hf => absurd hf List.not_mem_nil, fun _ => rfl⟩

/-- The dispatching half takes a frame that waits, so that none is left in WAITING (R159). -/
theorem dispatchNext_trunkOk (h : QueueOk s.trunk.queue) : TrunkOk (dispatchNext s).trunk := by
  unfold dispatchNext
  split
  · rename_i f rest _ queue
    have served := (Serves.serve (s := { s with trunk := { s.trunk with queue := rest } }) f).trunk
    have left : (take { s with trunk := { s.trunk with queue := rest } } f).trunk.queue = rest := by
      show (serve _ f).state.trunk.queue = rest
      rw [served]
    rw [queue] at h
    refine ⟨?_, fun g hg => ?_, nofun⟩
    · rw [left]; exact (Nat.le_succ _).trans h.1
    · rw [left] at hg; exact h.2 g (List.mem_cons_of_mem _ hg)
  · rename_i queue
    exact .of_empty queue
  · rename_i replying
    exact ⟨h.1, h.2, fun waiting => by rw [replying] at waiting; cases waiting⟩

theorem acceptFrame_trunkOk {f : Frame} (h : QueueOk s.trunk.queue) (fits : f.payload.length ≤ Config.payloadMax) :
    TrunkOk (acceptFrame s f).trunk := by
  refine dispatchNext_trunkOk ?_
  unfold offerFrame
  split
  · rename_i room
    refine ⟨?_, fun g hg => ?_⟩
    · show (s.trunk.queue ++ [f]).length ≤ _
      rw [List.length_append]
      exact room
    · rcases List.mem_append.1 hg with hg | hg
      · exact h.2 g hg
      · rw [List.mem_singleton.1 hg]; exact fits
  · exact h

theorem replyEnds_trunkOk (h : TrunkOk s.trunk) : TrunkOk (replyEnds s).trunk := by
  unfold replyEnds
  split
  · exact h
  · refine dispatchNext_trunkOk ?_
    show QueueOk (ite _ _ _ : State).trunk.queue
    split
    · obtain ⟨-, -, -, -, -, -, -, -, -, -, trunk, -⟩ := controllerReset_rest s
      rw [trunk]
      exact ⟨Nat.zero_le _, fun _ hf => absurd hf List.not_mem_nil⟩
    · exact h.queueOk

end

/-! ### The step -/

/-- From `s` to `t` every range and capacity is kept. -/
structure Ranged (s t : State) : Prop extends KeepsRanges s t where
  trunk : TrunkOk s.trunk → TrunkOk t.trunk

namespace Ranged

variable {s t u : State}

theorem refl (s : State) : Ranged s s := ⟨.refl s, id⟩

theorem trans (h : Ranged s t) (k : Ranged t u) : Ranged s u := ⟨h.toKeepsRanges.trans k.toKeepsRanges, k.trunk ∘ h.trunk⟩

theorem ite {p : Prop} [Decidable p] {a b : State} (ha : Ranged s a) (hb : Ranged s b) : Ranged s (if p then a else b) := by
  split <;> assumption

theorem of_judged (h : Judged s t) : Ranged s t := ⟨.of_judged h, by rw [h.trunk]; exact id⟩

theorem clock (t : Time) : Ranged s (s.clock t) := ⟨⟨id, id, id⟩, id⟩

/-- An event of a line, at its time. -/
theorem of_onLine {l : LineNo} {t : Time} (h : OnLine l (s.clock t) u) : Ranged s u :=
  (clock t).trans ⟨.of_onLine h, by rw [h.trunk]; exact id⟩

/-! ### The timebase -/

theorem setEpoch {e : Epoch} (h : EpochOk s.epoch → EpochOk e) : Ranged s { s with epoch := e } :=
  ⟨⟨id, id, fun ⟨curves, profiles, timing, epoch⟩ => ⟨curves, profiles, timing, h epoch⟩⟩, id⟩

/-- A restart takes the loaded period as its running period (R143). -/
theorem restart (time : Nat) (counter : Word) : Ranged s { s with epoch := { s.epoch.restart time with counter := counter } } :=
  setEpoch fun ⟨period, window, _⟩ => ⟨period, window, period⟩

theorem takeMark (time : Nat) : Ranged s (takeMark s time) := (restart time _).trans (of_judged .waveMark)

theorem takePulse : Ranged s (takePulse s) := by
  unfold Machine.takePulse
  dsimp only
  have measured : Ranged s { s with epoch := { s.epoch with
      offset := s.epoch.storedOffset (pulseResult s.epoch s.now).offset
      lock := (pulseResult s.epoch s.now).lock, mode := (pulseResult s.epoch s.now).mode } } := setEpoch id
  have slipped := ite (p := (pulseResult s.epoch s.now).lock = .slipped)
    (measured.trans (of_judged (.raise .epochSlip s.activeWaveNumber))) measured
  split
  · exact slipped
  · exact slipped.trans (takeMark _)
  · exact slipped.trans (restart _ _)

/-! ### The port -/

theorem setTrunk {x : Trunk} (h : TrunkOk s.trunk → TrunkOk x) : Ranged s { s with trunk := x } := ⟨.setTrunk x, h⟩

theorem skipFrame : Ranged s (skipFrame s) := ⟨.skipFrame, id⟩

theorem acceptFrame {f : Frame} (fits : ¬Config.payloadMax < f.payload.length) : Ranged s (acceptFrame s f) :=
  ⟨.acceptFrame f, fun h => acceptFrame_trunkOk h.queueOk (Nat.not_lt.1 fits)⟩

theorem submit (f : Frame) : Ranged s (submit s f) := by
  have complete : Ranged s (if Config.payloadMax < f.payload.length then Machine.skipFrame s else Machine.acceptFrame s f) := by
    split
    · exact skipFrame
    · rename_i fits; exact acceptFrame fits
  unfold Machine.submit
  split
  · exact refl s
  · exact complete
  · exact complete

theorem frameComplete (f : Frame) (check : Half) : Ranged s (frameComplete s f check) := by
  unfold Machine.frameComplete
  split
  · exact refl s
  · exact refl s
  · split
    · exact skipFrame
    · rename_i fits
      exact ite (acceptFrame fits) ⟨KeepsRanges.badCheck.trans (.setTrunk _), id⟩

theorem replyEnds : Ranged s (replyEnds s) := ⟨.replyEnds, replyEnds_trunkOk⟩

theorem lengthOversize (n : Half) : Ranged s (lengthOversize s n) := by
  unfold Machine.lengthOversize
  split
  · exact refl s
  · exact refl s
  · exact ite skipFrame (refl s)

theorem gapAbandon : Ranged s (gapAbandon s) := by
  unfold Machine.gapAbandon
  split
  · exact refl s
  · exact refl s
  · exact setTrunk id

theorem skipQuiet : Ranged s (skipQuiet s) := by
  unfold Machine.skipQuiet
  split
  · exact refl s
  · exact refl s
  · exact setTrunk id

theorem frameBegins : Ranged s (frameBegins s) := by
  unfold Machine.frameBegins
  split
  · exact setTrunk id
  · exact refl s
  · exact refl s

theorem holdReset : Ranged s (holdReset s) := ⟨⟨id, id, id⟩, fun _ => .of_empty rfl⟩

theorem powerOn : Ranged s (powerOn s) :=
  ⟨⟨fun _ => resetEvents_ok, fun _ => deferredOk_nil, fun _ => reset_tablesOk⟩, fun _ => .of_empty rfl⟩

/-! ### The commands -/

theorem exec (c : Instr) (ht : exec c s = .next t) : Ranged s t := by
  cases c <;> obtain rfl := Host.Outcome.next.inj ht
  case trunkFrameComplete => exact ite (refl s) (frameComplete _ _)
  case trunkLengthOversize => exact ite (refl s) (lengthOversize _)
  case trunkGapAbandon => exact ite (refl s) gapAbandon
  case trunkSkipQuiet => exact ite (refl s) skipQuiet
  case replySent => exact ite (refl s) replyEnds
  case resetNAssert => exact ite (refl s) holdReset
  case powerOnReset => exact powerOn
  case startCharacter => exact ite (refl s) frameBegins
  case epochMark => exact ite (refl s) ((clock _).trans (takeMark _))
  case epochPulse => exact ite (refl s) ((clock _).trans takePulse)
  case lineArbiterChoose => exact ite (refl s) (of_onLine .arbiter)
  case lineFrameSent => exact ite (refl s) (of_onLine .frameSent)
  case broadcastSent => exact ite (refl s) (of_onLine .broadcastEnds)
  case nextFrameSend | endFrameSend => exact ite (refl s) (of_onLine (.nextFrame _))
  case endSent => exact ite (refl s) (of_onLine .endEnds)
  case answerReady | answerNotReady | answerAccept | answerRetry | answerRefuse | answerPoll | answerStatus |
      answerGarbled =>
    exact ite (refl s) (of_onLine (.receiveAnswer _))
  case answerWaitSilence => exact ite (refl s) (of_onLine .waitSilence)
  case answerCharGap | readAnswerDeadline => exact ite (refl s) (of_onLine (.cutShort _))
  case strayCharacter => exact ite (refl s) (of_onLine .touch)
  case answerBegun => exact ite (refl s) (of_onLine .beginAnswer)
  case overrunDeadline => exact ite (refl s) ((clock _).trans (of_judged (.overrunExpired _)))
  all_goals exact ite (refl s) (submit _)

theorem step (ht : step s = .next t) : Ranged s t := by
  unfold Machine.step at ht
  split at ht
  · obtain rfl := Host.Outcome.next.inj ht
    exact refl s
  · rename_i c rest _
    have waiting : Ranged s { s with pending := rest } := ⟨⟨id, id, id⟩, id⟩
    exact waiting.trans (exec c ht)

end Ranged

/-- Settles O6: loads clamp what they write, raises keep a class in order, a commit tests the capacity before it defers, and a
frame that arrives is counted and taken at once in WAITING. -/
theorem stepsKeepRangesAndCapacities : Obligations.StepsKeepRangesAndCapacities := by
  intro s t ht
  obtain ⟨⟨events, deferred, tables⟩, trunk⟩ := Ranged.step ht
  exact ⟨events, trunk, deferred, tables⟩

end Sys2Proof.Machine
end

section
/-!
O15 to O17: MOVE, RETRACE and HOME.
-/

namespace Sys2Proof.Machine

variable {s : State} {r : RobotNo}

/-! ### The tests of a mover -/

theorem index?_profile (p : ProfileNo) : index? 16 (byteOf p.val).toNat = some p := by
  have value : (byteOf p.val).toNat = p.val := by
    rw [byteOf, BitVec.toNat_ofNat, Nat.mod_eq_of_lt (by omega)]
  rw [value, index?_of_lt p.isLt]

theorem withMover_badProfile {p : Byte} (f : Robot → ProfileNo → Served) (h : 16 ≤ p.toNat) :
    withMover s r p f = Served.error s .index := by
  rw [withMover, index?_of_le h]

theorem withMover_absent {p : Byte} (f : Robot → ProfileNo → Served) (h : p.toNat < 16) (absent : (s.robot r).slot = .absent) :
    withMover s r p f = Served.refused s .absent 0 := by
  rw [withMover, index?_of_lt h]
  exact if_pos absent

theorem withMover_disabled {p : Byte} (f : Robot → ProfileNo → Served) (h : p.toNat < 16)
    (present : (s.robot r).slot ≠ .absent) (disabled : (s.robot r).static.enable = false) :
    withMover s r p f = Served.refused s .disabled 0 := by
  rw [withMover, index?_of_lt h]
  exact (if_neg present).trans (if_pos disabled)

theorem withMover_passed (p : ProfileNo) (f : Robot → ProfileNo → Served) (present : (s.robot r).slot ≠ .absent)
    (enabled : (s.robot r).static.enable = true) : withMover s r (byteOf p.val) f = f (s.robot r) p := by
  rw [withMover, index?_profile]
  exact (if_neg present).trans (if_neg (by rw [enabled]; decide))

/-! ### The three requests in a ready part -/

/-- What a MOVE's owner answers is what the command answers (R159, R161). -/
theorem exec_move (ready : Ready s) {hub elbow : Word} {p : Byte} {t : State} {status : Status} {payload : List Byte}
    (served : moveRequest s.hunting r hub elbow p = ⟨t.hunting, status, payload⟩) :
    exec (.move (halfOf r.val) hub elbow p) s = .next (t.answer (halfOf r.val) 1 status payload) :=
  exec_answer (f := moveFrame (halfOf r.val) hub elbow p) rfl ready (by show 9 ≤ 512; decide)
    (by rw [serve, parse_move]; exact served)

theorem exec_retrace (ready : Ready s) {p : Byte} {t : State} {status : Status} {payload : List Byte}
    (served : retraceRequest s.hunting r p = ⟨t.hunting, status, payload⟩) :
    exec (.retrace (halfOf r.val) p) s = .next (t.answer (halfOf r.val) 2 status payload) :=
  exec_answer (f := retraceFrame (halfOf r.val) p) rfl ready (by show 1 ≤ 512; decide)
    (by rw [serve, parse_retrace]; exact served)

theorem exec_home (ready : Ready s) {p : Byte} {t : State} {status : Status} {payload : List Byte}
    (served : homeRequest s.hunting r p = ⟨t.hunting, status, payload⟩) :
    exec (.home (halfOf r.val) p) s = .next (t.answer (halfOf r.val) 3 status payload) :=
  exec_answer (f := homeFrame (halfOf r.val) p) rfl ready (by show 1 ≤ 512; decide)
    (by rw [serve, parse_home]; exact served)

/-- Settles O15: the three requests share their tests. -/
theorem moversAreTested : Obligations.MoversAreTested := by
  intro s r hub elbow p ready
  refine ⟨fun bad => ⟨exec_move (t := s) ready ?_, exec_retrace (t := s) ready ?_, exec_home (t := s) ready ?_⟩,
    fun good absent => ⟨exec_move (t := s) ready ?_, exec_retrace (t := s) ready ?_, exec_home (t := s) ready ?_⟩,
    fun good present disabled => ⟨exec_move (t := s) ready ?_, exec_retrace (t := s) ready ?_, exec_home (t := s) ready ?_⟩⟩
  iterate 3 exact withMover_badProfile _ bad
  iterate 3 exact withMover_absent _ good absent
  iterate 3 exact withMover_disabled _ good present disabled

/-! ### A record placed -/

theorem withdraw_eq_withdrawn (s : State) (r : RobotNo) :
    s.withdraw r = if s.holdsMove r then s.withdrawn r else s := rfl

/-- A record joins the open wave as R30 says, whatever the receiving half does. -/
theorem placeRecord_hunting (s : State) (m : MoveRecord) : s.hunting.placeRecord m = (s.placed m).hunting := by
  have same : s.hunting.holdsMove m.robot = s.holdsMove m.robot := rfl
  unfold State.placeRecord State.placed
  rw [withdraw_eq_withdrawn, same]
  by_cases held : s.holdsMove m.robot = true
  · simp only [if_pos held]; rfl
  · simp only [if_neg held]; rfl

/-! ### A clamped target -/

/-- A value clamped to a range between two words fits a word. -/
theorem toInt_ofInt_clampInt (lo hi x : Word) :
    (BitVec.ofInt 32 (clampInt lo.toInt hi.toInt x.toInt)).toInt = clampInt lo.toInt hi.toInt x.toInt := by
  unfold clampInt
  split_ifs <;> rw [BitVec.ofInt_toInt]

theorem ofInt_clampInt_ne (lo hi x : Word) :
    BitVec.ofInt 32 (clampInt lo.toInt hi.toInt x.toInt) ≠ x ↔ clampInt lo.toInt hi.toInt x.toInt ≠ x.toInt := by
  rw [Ne, Ne, ← BitVec.toInt_inj, toInt_ofInt_clampInt]

theorem inWord_iff (x : Int) : inWord x = true ↔ ¬(x < -2147483648 ∨ 2147483647 < x) := by
  rw [inWord, decide_eq_true_eq]
  omega

variable {hub elbow : Word}

/-- The GOTO target of a MOVE for a robot of fields `b` (R26, R27). -/
def gotoTarget (s : State) (b : RobotStatic) (hub elbow : Word) : GotoTarget :=
  let h := clampInt b.hubMin.toInt b.hubMax.toInt hub.toInt
  let e := clampInt b.elbowMin.toInt b.elbowMax.toInt elbow.toInt
  let q := targetSteps s b ⟨BitVec.ofInt 32 h, BitVec.ofInt 32 e⟩
  { angles := ⟨BitVec.ofInt 32 h, BitVec.ofInt 32 e⟩, steps := ⟨BitVec.ofInt 32 q.1, BitVec.ofInt 32 q.2⟩,
    hubClamped := h ≠ hub.toInt, elbowClamped := e ≠ elbow.toInt }

/-- A target step count leaves 32 bits (R29). -/
def leavesWord (q : Int × Int) : Prop :=
  q.1 < -2147483648 ∨ 2147483647 < q.1 ∨ q.2 < -2147483648 ∨ 2147483647 < q.2

theorem leavesWord_iff (q : Int × Int) : leavesWord q ↔ (inWord q.1 && inWord q.2) = false := by
  rw [← Bool.not_eq_true, Bool.and_eq_true, inWord_iff, inWord_iff, leavesWord]
  omega

theorem calibrate_fenced {b : RobotStatic}
    (fenced : forbidden b (clampInt b.hubMin.toInt b.hubMax.toInt hub.toInt) = true) :
    calibrate s b hub elbow = .error .fenced := by
  refine if_pos ?_
  rwa [clampTarget, toInt_ofInt_clampInt]

theorem calibrate_range {b : RobotStatic}
    (clear : ¬forbidden b (clampInt b.hubMin.toInt b.hubMax.toInt hub.toInt) = true)
    (range : leavesWord (targetSteps s b (clampTarget b hub elbow))) : calibrate s b hub elbow = .error .range := by
  refine (if_neg ?_).trans (if_neg ?_)
  · rwa [clampTarget, toInt_ofInt_clampInt]
  · rw [(leavesWord_iff _).1 range]
    decide

theorem calibrate_ok {b : RobotStatic}
    (clear : ¬forbidden b (clampInt b.hubMin.toInt b.hubMax.toInt hub.toInt) = true)
    (fits : ¬leavesWord (targetSteps s b (clampTarget b hub elbow))) :
    calibrate s b hub elbow = .ok (gotoTarget s b hub elbow) := by
  have target : gotoTarget s b hub elbow =
      { gotoTarget s b hub elbow with
        hubClamped := (clampTarget b hub elbow).hub ≠ hub, elbowClamped := (clampTarget b hub elbow).elbow ≠ elbow } := by
    rw [gotoTarget]
    congr 1 <;> exact decide_eq_decide.2 (ofInt_clampInt_ne _ _ _).symm
  rw [target]
  refine (if_neg ?_).trans (if_pos ?_)
  · rwa [clampTarget, toInt_ofInt_clampInt]
  · rwa [leavesWord_iff, Bool.not_eq_false] at fits

theorem moveRequest_refused (p : ProfileNo) (present : (s.robot r).slot ≠ .absent) (enabled : (s.robot r).static.enable = true)
    {why : Reason} (h : calibrate s (s.robot r).static hub elbow = .error why) :
    moveRequest s r hub elbow (byteOf p.val) = Served.refused s why 0 := by
  rw [moveRequest, withMover_passed p _ present enabled, h]

theorem moveRequest_placed (p : ProfileNo) (present : (s.robot r).slot ≠ .absent) (enabled : (s.robot r).static.enable = true)
    {g : GotoTarget} (h : calibrate s (s.robot r).static hub elbow = .ok g) :
    moveRequest s r hub elbow (byteOf p.val) =
      ⟨s.placeRecord ⟨r, .goto g, p⟩, clampStatus (g.hubClamped || g.elbowClamped),
        pairBytes g.angles ++ pairBytes g.steps ++ [replyFlags g.hubClamped g.elbowClamped (s.holdsMove r)]⟩ := by
  rw [moveRequest, withMover_passed p _ present enabled, h]

/-- Settles O16, by the tests of `calibrate`. -/
theorem moveOutcome : Obligations.MoveOutcome := by
  intro s r hub elbow p ready present enabled d b h e q g
  by_cases fenced : forbidden b h = true
  · rw [if_pos fenced]
    exact exec_move (t := s) ready (moveRequest_refused (s := s.hunting) p present enabled (calibrate_fenced fenced))
  · rw [if_neg fenced]
    by_cases range : leavesWord q
    · rw [if_pos (show _ ∨ _ from range)]
      exact exec_move (t := s) ready (moveRequest_refused (s := s.hunting) p present enabled (calibrate_range fenced range))
    · rw [if_neg (show ¬(_ ∨ _) from range)]
      refine exec_move (t := s.placed ⟨r, .goto g, p⟩) ready
        ((moveRequest_placed (s := s.hunting) p present enabled (calibrate_ok fenced range)).trans ?_)
      rw [placeRecord_hunting]
      simp only [pairBytes, List.append_assoc]
      rfl

/-- Settles O17: a RETRACE with an empty stack is refused, any other request is placed. -/
theorem retraceAndHomeOutcome : Obligations.RetraceAndHomeOutcome := by
  intro s r p ready present enabled d replaced
  refine ⟨?_, exec_home ready ?_⟩
  · have served : retraceRequest s.hunting r (byteOf p.val) = _ :=
      withMover_passed (s := s.hunting) p _ present enabled
    by_cases empty : (s.robot r).stack = []
    · rw [if_pos empty]
      exact exec_retrace (t := s) ready (served.trans (if_pos empty))
    · rw [if_neg empty]
      refine exec_retrace ready (served.trans ((if_neg empty).trans ?_))
      rw [placeRecord_hunting]
      rfl
  · refine (withMover_passed (s := s.hunting) p _ present enabled).trans ?_
    rw [placeRecord_hunting]
    rfl

end Sys2Proof.Machine
end

section
/-!
O57: the step generator takes exactly the delta.
-/

namespace Sys2Proof.Machine

/-! ### Increment and remainder term (R38) -/

theorem increment_mul_add (d : Int) (n : Nat) : n * increment d n + remainderTerm d n = d.natAbs * 65536 :=
  Nat.add_sub_cancel' (Nat.mul_div_le _ _)

theorem remainderTerm_lt (d : Int) {n : Nat} (hn : 0 < n) : remainderTerm d n < n := by
  have whole := increment_mul_add d n
  have next : d.natAbs * 65536 < n * (increment d n + 1) := Nat.lt_mul_div_succ _ hn
  rw [Nat.mul_add_one n] at next
  omega

/-! ### The generator -/

namespace Axis

/-- One interval moves the axis on by the increment and the remainder term, in units of 1/65 536 of a step over `n`. -/
theorem interval_total {x a n : Nat} {g : Axis} (rest : g.remainder < n) (ha : a < n) :
    let h := g.interval x a n
    h.phase < 65536 ∧ h.remainder < n ∧
      n * (65536 * h.steps + h.phase) + h.remainder = n * (65536 * g.steps + g.phase) + g.remainder + (n * x + a) := by
  have whole (steps phase : Nat) : 65536 * (steps + phase / 65536) + phase % 65536 = 65536 * steps + phase := by omega
  unfold interval
  dsimp only
  rw [whole]
  refine ⟨Nat.mod_lt _ (by decide), ?_, ?_⟩
  · split_ifs <;> omega
  · split_ifs with carry
    · simp only [Nat.mul_add, Nat.mul_one]; omega
    · simp only [Nat.mul_add, Nat.mul_zero]; omega

variable {d : Int} {n : Nat}

/-- After `k` intervals the axis stands at `k / n` of its delta: steps, phase and remainder hold all of it. -/
theorem after_total (hn : 0 < n) (k : Nat) :
    let g := after (increment d n) (remainderTerm d n) n k
    g.phase < 65536 ∧ g.remainder < n ∧
      n * (65536 * g.steps + g.phase) + g.remainder = k * (d.natAbs * 65536) := by
  induction k with
  | zero => simp [after, start, hn]
  | succ k ih =>
    obtain ⟨-, rest, total⟩ := ih
    obtain ⟨phase', rest', total'⟩ := interval_total (x := increment d n) rest (remainderTerm_lt d hn)
    refine ⟨phase', rest', total'.trans ?_⟩
    rw [total, increment_mul_add, Nat.succ_mul]

/-- The steps taken after `k` intervals. -/
theorem after_steps (hn : 0 < n) (k : Nat) :
    (after (increment d n) (remainderTerm d n) n k).steps = k * d.natAbs / n := by
  obtain ⟨phase, rest, total⟩ := after_total (d := d) hn k
  generalize after (increment d n) (remainderTerm d n) n k = g at *
  have below : n * g.phase ≤ n * 65535 := Nat.mul_le_mul_left n (by omega)
  rw [Nat.mul_add, Nat.mul_left_comm n 65536, ← Nat.mul_assoc k] at total
  refine (Nat.div_eq_of_lt_le ?_ ?_).symm
  · rw [Nat.mul_comm]; omega
  · rw [Nat.succ_mul, Nat.mul_comm g.steps]; omega

end Axis

/-- Settles O57, by the total that the generator holds after each interval. -/
theorem generatorTakesExactlyTheDelta : Obligations.GeneratorTakesExactlyTheDelta := by
  intro d n hn x a
  refine ⟨?_, fun hd => ?_, fun v k speed hk _ => ?_⟩
  · obtain ⟨-, -, total⟩ := Axis.after_total (d := d) hn n
    have steps := Axis.after_steps (d := d) hn n
    rw [Nat.mul_div_cancel_left _ hn] at steps
    rw [steps, Nat.mul_comm d.natAbs, Nat.mul_add, Nat.add_assoc, Nat.add_eq_left] at total
    obtain ⟨phase, remainder⟩ := Nat.add_eq_zero_iff.1 total
    have fields : Axis.after x a n n =
        ⟨(Axis.after x a n n).phase, (Axis.after x a n n).remainder, (Axis.after x a n n).steps⟩ := rfl
    rw [fields, (Nat.mul_eq_zero.1 phase).resolve_left hn.ne', remainder, steps]
  · rw [Axis.after_steps hn]
    exact Nat.div_lt_of_lt_mul (Nat.mul_lt_mul_of_pos_right (by omega) (Int.natAbs_pos.2 hd))
  · rw [Axis.stepsIn, Axis.after_steps hn, Axis.after_steps hn, Nat.sub_le_iff_le_add]
    calc k * d.natAbs / n
        ≤ (n * v + (k - 1) * d.natAbs) / n := by
          refine Nat.div_le_div_right ?_
          obtain ⟨j, rfl⟩ := Nat.exists_eq_add_of_le' hk
          rw [Nat.succ_mul, Nat.add_sub_cancel, Nat.add_comm]
          exact Nat.add_le_add_right speed _
      _ = v + (k - 1) * d.natAbs / n := Nat.mul_add_div hn _ _

end Sys2Proof.Machine
end

section
/-!
O56: the plan of a candidate.
-/

namespace Sys2Proof.Machine

/-! ### The least duration (R37) -/

theorem ceilDiv_le_iff {a b n : Nat} (hb : 0 < b) : ceilDiv a b ≤ n ↔ a ≤ n * b := by
  rw [ceilDiv, ← Nat.ceilDiv_eq_add_pred_div, ceilDiv_le_iff_le_mul hb, Nat.mul_comm]

/-- A duration keeps both axes to their top speeds and is at least N_min (R37). -/
def KeepsSpeeds (p : Profile) (dh de : Int) (n : Nat) : Prop :=
  dh.natAbs ≤ n * p.vHub.toNat ∧ de.natAbs ≤ n * p.vElbow.toNat ∧ p.nMin.toNat ≤ n

theorem duration_le_iff {p : Profile} (h : ProfileOk p) (dh de : Int) (n : Nat) :
    duration p dh de ≤ n ↔ KeepsSpeeds p dh de n := by
  obtain ⟨⟨hub, -⟩, ⟨elbow, -⟩, -⟩ := h
  rw [duration, max_le_iff, max_le_iff, ceilDiv_le_iff hub, ceilDiv_le_iff elbow, KeepsSpeeds]

/-! ### The fields of one axis (R38) -/

/-- The increment and remainder term of an axis lose no bit in their fields, and obey their bounds (R38). -/
theorem axisFields {d : Int} {n v : Nat} (hn : 0 < n) (short : n ≤ 65535) (slow : v ≤ 4095) (speed : d.natAbs ≤ n * v) :
    n * (BitVec.ofNat 32 (increment d n)).toNat + (halfOf (remainderTerm d n)).toNat = d.natAbs * 65536 ∧
      (halfOf (remainderTerm d n)).toNat < n ∧ (BitVec.ofNat 32 (increment d n)).toNat ≤ v * 65536 := by
  have top : increment d n ≤ v * 65536 := by
    refine Nat.div_le_of_le_mul ?_
    rw [← Nat.mul_assoc]
    exact Nat.mul_le_mul_right _ speed
  have rest := remainderTerm_lt d hn
  rw [halfOf_toNat (by omega), BitVec.toNat_ofNat, Nat.mod_eq_of_lt (by omega)]
  exact ⟨increment_mul_add d n, rest, top⟩

/-! ### The plan of a GOTO or RETRACE -/

/-- What the planner answers for a move from a start to a target, by its tests in their order (R35 to R38). -/
theorem planMove_cases {b : RobotStatic} {p : Profile} (ok : ProfileOk p) (start target : Position) :
    let dh := target.steps.hub.toInt - start.steps.hub.toInt
    let de := target.steps.elbow.toInt - start.steps.elbow.toInt
    let fenced := sweepForbidden b (min start.angles.hub.toInt target.angles.hub.toInt)
      (max start.angles.hub.toInt target.angles.hub.toInt) = true
    (fenced ∧ planMove b p start target = .fenced) ∨
    ¬fenced ∧ ((dh = 0 ∧ de = 0) ∧ planMove b p start target = .null ∨ ¬(dh = 0 ∧ de = 0) ∧
      (¬KeepsSpeeds p dh de 65535 ∧ planMove b p start target = .long ∨ ∃ n, n ≤ 65535 ∧
        (∀ k, KeepsSpeeds p dh de k ↔ n ≤ k) ∧
        planMove b p start target = .plan ⟨some start, target, .segment (segmentOf dh de n)⟩)) := by
  intro dh de fenced
  by_cases hf : fenced
  · exact .inl ⟨hf, if_pos hf⟩
  refine .inr ⟨hf, ?_⟩
  by_cases zero : dh = 0 ∧ de = 0
  · exact .inl ⟨zero, (if_neg hf).trans (if_pos zero)⟩
  refine .inr ⟨zero, ?_⟩
  by_cases long : 65535 < duration p dh de
  · refine .inl ⟨fun keeps => ?_, (if_neg hf).trans ((if_neg zero).trans (if_pos long))⟩
    exact absurd ((duration_le_iff ok dh de _).2 keeps) (Nat.not_le.2 long)
  · exact .inr ⟨_, Nat.not_lt.1 long, fun k => (duration_le_iff ok dh de k).symm,
      (if_neg hf).trans ((if_neg zero).trans (if_neg long))⟩

/-- The segment of the least duration obeys the bounds of R38. -/
theorem segmentOf_bounds {p : Profile} (ok : ProfileOk p) {dh de : Int} {n : Nat} (short : n ≤ 65535)
    (least : ∀ k, KeepsSpeeds p dh de k ↔ n ≤ k) : let g := segmentOf dh de n
    KeepsSpeeds p dh de g.n.toNat ∧ (∀ k, KeepsSpeeds p dh de k → g.n.toNat ≤ k) ∧ 1 ≤ g.n.toNat ∧
      g.n.toNat * g.xHub.toNat + g.aHub.toNat = dh.natAbs * 65536 ∧ g.aHub.toNat < g.n.toNat ∧
      g.n.toNat * g.xElbow.toNat + g.aElbow.toNat = de.natAbs * 65536 ∧ g.aElbow.toNat < g.n.toNat ∧
      g.xHub.toNat ≤ p.vHub.toNat * 65536 ∧ g.xElbow.toNat ≤ p.vElbow.toNat * 65536 ∧
      (g.hubNegative = true ↔ dh < 0) ∧ (g.elbowNegative = true ↔ de < 0) := by
  have keeps := (least n).2 le_rfl
  have ⟨hub, elbow, floor⟩ := keeps
  obtain ⟨⟨-, hubTop⟩, ⟨-, elbowTop⟩, ⟨nMin, -⟩, -⟩ := ok
  have hn : 0 < n := Nat.lt_of_lt_of_le nMin floor
  have duration : (segmentOf dh de n).n.toNat = n := halfOf_toNat (by omega)
  obtain ⟨hubExact, hubRest, hubSpeed⟩ := axisFields hn short hubTop hub
  obtain ⟨elbowExact, elbowRest, elbowSpeed⟩ := axisFields hn short elbowTop elbow
  dsimp only
  rw [duration]
  exact ⟨keeps, fun k => (least k).1, hn, hubExact, hubRest, elbowExact, elbowRest, hubSpeed, elbowSpeed,
    decide_eq_true_iff, decide_eq_true_iff⟩

/-- The plan of a GOTO or RETRACE candidate goes from the believed position to its target (R34). -/
theorem planCandidate_move {s : State} {m : MoveRecord} {target : Position}
    (h : (∃ g, m.what = .goto g ∧ target = ⟨g.angles, g.steps⟩) ∨
      (m.what = .retrace ∧ ∃ below, (s.robot m.robot).stack = target :: below)) :
    planCandidate s m = planMove (s.robot m.robot).static (s.profile m.profile) (s.robot m.robot).believed target := by
  unfold planCandidate
  rcases h with ⟨g, what, rfl⟩ | ⟨what, below, stack⟩
  · rw [what]
  · rw [what]
    dsimp only
    rw [stack]
    rfl

/-- Settles O56, by the tests of the planner and the bounds of its segment. -/
theorem plansSatisfyTheirBounds : Obligations.PlansSatisfyTheirBounds := by
  intro s m
  refine ⟨fun target ok move => ?_, fun home => ?_⟩
  · dsimp only
    rw [planCandidate_move move]
    rcases planMove_cases (b := (s.robot m.robot).static) ok (s.robot m.robot).believed target with
      ⟨fenced, plan⟩ | ⟨fenced, ⟨zero, plan⟩ | ⟨zero, ⟨long, plan⟩ | ⟨n, short, least, plan⟩⟩⟩ <;> rw [plan]
    · exact fenced
    · exact ⟨fenced, zero⟩
    · exact ⟨fenced, zero, long⟩
    · exact ⟨fenced, zero, rfl, rfl, _, rfl, segmentOf_bounds ok short least⟩
  · unfold planCandidate
    rw [home]
    rfl

end Sys2Proof.Machine
end

section
/-!
O54: correction and gearing.
-/

namespace Sys2Proof.Machine

/-! ### Division rounded toward zero -/

theorem tdiv_bounds {v b : Int} (hb : 0 < b) (hv : 0 ≤ v) :
    0 ≤ v.tdiv b ∧ v.tdiv b * b ≤ v ∧ v < (v.tdiv b + 1) * b := by
  rw [Int.tdiv_eq_ediv_of_nonneg hv]
  exact ⟨Int.ediv_nonneg hv hb.le, Int.ediv_mul_le v hb.ne', Int.lt_ediv_add_one_mul_self v hb⟩

theorem tdiv_bounds_neg {v b : Int} (hb : 0 < b) (hv : v ≤ 0) :
    v.tdiv b ≤ 0 ∧ v ≤ v.tdiv b * b ∧ (v.tdiv b - 1) * b < v := by
  obtain ⟨sign, below, above⟩ := tdiv_bounds hb (show 0 ≤ -v by omega)
  rw [Int.neg_tdiv] at sign below above
  rw [Int.neg_mul] at below
  rw [show -v.tdiv b + 1 = -(v.tdiv b - 1) by ring, Int.neg_mul] at above
  exact ⟨by omega, by omega, by omega⟩

/-! ### Interpolation between knots (R28) -/

/-- Every knot read lies in the range of R21, also past the last one. -/
theorem knot_bounds {c : Curve} (ok : CurveOk c) (k : Nat) : -8192 ≤ c.knot k ∧ c.knot k ≤ 8191 := by
  unfold Curve.knot
  by_cases inside : k < 17
  · rw [List.getD_eq_getElem _ _ (by simpa using inside), Vector.getElem_toList]
    exact ok ⟨k, inside⟩
  · rw [List.getD_eq_default _ _ (by simpa using inside)]
    decide

variable {c : Curve} {lo spacing θ : Int}

/-- An angle of the axis range lies a residue past one of the knots 0 to 15, a whole spacing only at the top. -/
theorem exists_knot (hs : 0 < spacing) (low : lo ≤ θ) (high : θ ≤ lo + 16 * spacing) :
    ∃ (k : Nat) (r : Int), k ≤ 15 ∧ 0 ≤ r ∧ r ≤ spacing ∧ (r = spacing → k = 15) ∧ θ = lo + k * spacing + r := by
  by_cases top : θ = lo + 16 * spacing
  · exact ⟨15, spacing, le_rfl, hs.le, le_rfl, fun _ => rfl, by rw [top]; push_cast; ring⟩
  · have whole := Int.ediv_mul_add_emod (θ - lo) spacing
    have rest := Int.emod_nonneg (θ - lo) hs.ne'
    have below := Int.emod_lt_of_pos (θ - lo) hs
    have first : 0 ≤ (θ - lo) / spacing := Int.ediv_nonneg (by omega) hs.le
    have last : (θ - lo) / spacing < 16 := Int.ediv_lt_of_lt_mul hs (by omega)
    refine ⟨((θ - lo) / spacing).toNat, (θ - lo) % spacing, by omega, rest, below.le, fun h => by omega, ?_⟩
    rw [Int.toNat_of_nonneg first]
    omega

/-- The correction of an angle a residue past knot `k` (R28). -/
theorem correction_eq (hs : 0 < spacing) {k : Nat} {r : Int} (hk : k ≤ 15) (h0 : 0 ≤ r) (h1 : r ≤ spacing)
    (top : r = spacing → k = 15) (hθ : θ = lo + k * spacing + r) :
    correction c lo spacing θ = c.knot k + ((c.knot (k + 1) - c.knot k) * r).tdiv spacing := by
  have offset : θ - lo = r + k * spacing := by omega
  have index : (if (θ - lo) / spacing = 16 then 15 else (θ - lo) / spacing) = (k : Int) := by
    rw [offset, Int.add_mul_ediv_right _ _ hs.ne']
    rcases eq_or_lt_of_le h1 with rfl | inside
    · rw [top rfl, Int.ediv_self hs.ne']; rfl
    · rw [Int.ediv_eq_zero_of_lt h0 inside, Int.zero_add, if_neg (by omega)]
  unfold correction
  simp only [index, Int.toNat_natCast]
  rw [show θ - lo - k * spacing = r by omega]

/-- At a knot the correction is the knot (R28). -/
theorem correction_knot (hs : 0 < spacing) {k : Nat} (hk : k ≤ 16) (hθ : θ = lo + k * spacing) :
    correction c lo spacing θ = c.knot k := by
  rcases Nat.lt_or_ge k 16 with inside | last
  · rw [correction_eq (k := k) (r := 0) hs (by omega) le_rfl hs.le (fun h => absurd h hs.ne) (by omega), Int.mul_zero,
      Int.zero_tdiv, Int.add_zero]
  · obtain rfl : k = 16 := by omega
    rw [correction_eq (k := 15) (r := spacing) hs le_rfl hs.le le_rfl (fun _ => rfl) (by rw [hθ]; push_cast; ring),
      Int.mul_tdiv_cancel _ hs.ne']
    exact add_sub_cancel _ _

/-- The correction lies between two knots, so in the range of R21. -/
theorem correction_bounds (ok : CurveOk c) (hs : 0 < spacing) (low : lo ≤ θ) (high : θ ≤ lo + 16 * spacing) :
    -8192 ≤ correction c lo spacing θ ∧ correction c lo spacing θ ≤ 8191 := by
  obtain ⟨k, r, hk, h0, h1, top, hθ⟩ := exists_knot hs low high
  rw [correction_eq hs hk h0 h1 top hθ]
  obtain ⟨here, here'⟩ := knot_bounds ok k
  obtain ⟨next, next'⟩ := knot_bounds ok (k + 1)
  generalize c.knot k = a at *
  generalize c.knot (k + 1) = b at *
  rcases Int.le_total 0 (b - a) with rising | falling
  · obtain ⟨sign, below, -⟩ := tdiv_bounds hs (Int.mul_nonneg rising h0)
    have part : ((b - a) * r).tdiv spacing ≤ b - a :=
      Int.le_of_mul_le_mul_right (below.trans (Int.mul_le_mul_of_nonneg_left h1 rising)) hs
    omega
  · obtain ⟨sign, above, -⟩ := tdiv_bounds_neg hs (Int.mul_nonpos_of_nonpos_of_nonneg falling h0)
    have part : b - a ≤ ((b - a) * r).tdiv spacing :=
      Int.le_of_mul_le_mul_right ((Int.mul_le_mul_of_nonpos_left falling h1).trans above) hs
    omega

/-! ### Gearing (R29) -/

/-- A rounded quotient is nearest, and a tie goes away from zero (R29). -/
theorem roundUnit_nearest (v : Int) : 2 * (65536 * roundUnit v - v).natAbs ≤ 65536 ∧
    (2 * (65536 * roundUnit v - v).natAbs = 65536 → (roundUnit v).natAbs * 65536 > v.natAbs) := by
  simp only [roundUnit, Config.unit]
  split_ifs <;> omega

/-- Settles O54: interpolation at a residue past a knot, rounding, and the two products. -/
theorem targetsAreCorrectedAndGeared : Obligations.TargetsAreCorrectedAndGeared := by
  refine ⟨fun c lo spacing θ ok hs low high => ?_, roundUnit_nearest, fun s b a => rfl⟩
  obtain ⟨lower, upper⟩ := correction_bounds ok hs low high
  refine ⟨?_, fun k => correction_knot hs, lower, upper.trans (by decide)⟩
  obtain ⟨k, r, hk, h0, h1, top, hθ⟩ := exists_knot hs low high
  exact ⟨k, r, hk, h0, h1, top, hθ, _, correction_eq hs hk h0 h1 top hθ, tdiv_bounds hs, tdiv_bounds_neg hs⟩

end Sys2Proof.Machine
end

section
/-!
O23: the loads that clamp.
-/

namespace Sys2Proof.Machine

/-! ### The records of a run -/

theorem rawCurve_take (bs : List Byte) : rawCurve (bs.take 34) = rawCurve bs :=
  congrArg Vector.ofFn (funext fun i => u16_take bs (by omega))

theorem rawProfile_take (bs : List Byte) : rawProfile (bs.take 12) = rawProfile bs := by
  simp (disch := decide) only [rawProfile, u16_take, u32_take]

theorem rawTiming_take (bs : List Byte) : rawTiming (bs.take 18) = rawTiming bs := by
  simp (disch := decide) only [rawTiming, u8_take, u16_take]

@[simp] theorem rawCurve_getElem (bs : List Byte) (k : Fin 17) : (rawCurve bs)[k] = u16 bs (2 * k.val) := by
  simp [rawCurve]

section Run

variable {α : Type} {width : Nat} {f : List Byte → α} (reads : ∀ bs, f (bs.take width) = f bs) (records : List Byte)
  (count : Nat)

include reads

/-- The records of a frame read, each from where it begins. -/
theorem map_recordsOf : (recordsOf records width count).map f = (List.range count).map fun i => f (records.drop (i * width)) := by
  rw [recordsOf, List.map_map]
  exact List.map_congr_left fun i _ => reads _

/-- What clamped records of a frame write to the place `i` of a table, when they are written from `first` on. -/
theorem run_getD (clamp : α → α) (d : α) (first i : Nat) :
    (if first ≤ i then (((recordsOf records width count).map f).map clamp).getD (i - first) d else d) =
      if first ≤ i ∧ i < first + count then clamp (f (records.drop ((i - first) * width))) else d := by
  rw [map_recordsOf reads, List.map_map, List.getD_eq_getElem?_getD, List.getElem?_map]
  by_cases low : first ≤ i
  · by_cases high : i < first + count
    · rw [if_pos low, if_pos ⟨low, high⟩, List.getElem?_range (by omega)]; rfl
    · rw [if_pos low, if_neg fun h => high h.2, List.getElem?_eq_none (by rw [List.length_range]; omega)]; rfl
  · rw [if_neg low, if_neg fun h => low h.1]

/-- A clamp changes the records of a run when it changes one of them. -/
theorem run_clamped (clamp : α → α) {size first : Nat} (fits : first + count ≤ size) :
    ((recordsOf records width count).map f).map clamp ≠ (recordsOf records width count).map f ↔
      ∃ i : Fin size, (first ≤ i.val ∧ i.val < first + count) ∧
        clamp (f (records.drop ((i.val - first) * width))) ≠ f (records.drop ((i.val - first) * width)) := by
  rw [map_recordsOf reads, List.map_map, Ne, List.map_inj_left, not_forall]
  simp only [List.mem_range, Function.comp_apply, Classical.not_imp]
  constructor
  · rintro ⟨j, hj, changed⟩
    exact ⟨⟨first + j, by omega⟩, by dsimp only; omega, by simpa only [Nat.add_sub_cancel_left] using changed⟩
  · rintro ⟨i, hi, changed⟩
    exact ⟨i.val - first, by omega, changed⟩

end Run

/-- A curve is clamped when one of its knots is (R22). -/
theorem clampCurve_ne (k : Curve) : clampCurve k ≠ k ↔ ∃ i : Fin 17, clampKnot k[i] ≠ k[i] := by
  have same : clampCurve k = k ↔ ∀ i : Fin 17, clampKnot k[i] = k[i] := by
    constructor
    · intro h i
      rw [← clampCurve_getElem, h]
    · intro h
      refine Vector.ext fun i hi => ?_
      exact (clampCurve_getElem k ⟨i, hi⟩).trans (h ⟨i, hi⟩)
  rw [Ne, same, not_forall]

/-! ### The answer of a load -/

variable {s : State} {first count : Half} {records : List Byte}

/-- A LOAD that passes R165 is answered by its table's owner (R166). -/
theorem exec_load (ready : Ready s) (short : records.length + 5 ≤ 512) {c : Instr} {table : Byte} {size width : Nat}
    (frame : requestFrame c = some (loadFrame 0xFFFF table first count records))
    (shape : loadShape table = some (size, width)) (hc : count.toNat ≠ 0) (fits : first.toNat + count.toNat ≤ size)
    (hl : records.length = count.toNat * width) {t : State} {status : Status} {payload : List Byte}
    (served : loadTable s.hunting table first.toNat count.toNat (recordsOf records width count.toNat) =
      ⟨t.hunting, status, payload⟩) : exec c s = .next (t.answer 0xFFFF 16 status payload) := by
  refine exec_answer frame ready ?_ ?_
  · simp only [loadFrame, List.length_cons, List.length_append, le16_length, Config.payloadMax]
    omega
  · rw [serve, parse_load]
    show serveLoad s.hunting table first count records = _
    unfold serveLoad
    rw [shape]
    dsimp only
    rw [if_neg (by omega), if_neg (by omega)]
    exact served

/-- A LOAD that clamps answers with its count, CLAMPED when a value changed (R166). -/
theorem exec_clampingLoad (ready : Ready s) (short : records.length + 5 ≤ 512) {c : Instr} {table : Byte} {size width : Nat}
    (frame : requestFrame c = some (loadFrame 0xFFFF table first count records))
    (shape : loadShape table = some (size, width)) (hc : count.toNat ≠ 0) (fits : first.toNat + count.toNat ≤ size)
    (hl : records.length = count.toNat * width) {t : State} {clamped : Bool} {changed : Prop} [Decidable changed]
    (iff : clamped = true ↔ changed)
    (served : loadTable s.hunting table first.toNat count.toNat (recordsOf records width count.toNat) =
      ⟨t.hunting, clampStatus clamped, le16 (halfOf count.toNat)⟩) :
    exec c s = .next (t.answer 0xFFFF 16 (if changed then .clamped else .ok) (le16 count)) := by
  rw [exec_load ready short frame shape hc fits hl served, clampStatus, if_congr iff rfl rfl,
    show halfOf count.toNat = count from BitVec.ofNat_toNat ..]

/-! ### The epoch record -/

/-- The values of a loaded timebase, as numbers (R151). -/
theorem Epoch.loaded_eq (e : Epoch) (m : EpochMode) (period window : Word) :
    let p := clampNat 10000 1000000 period.toNat
    let w := clampNat 0 (p / 8) window.toNat
    e.loaded m period window =
        { e with mode := m, period := BitVec.ofNat 32 p, window := BitVec.ofNat 32 w, lock := .none } ∧
      ((e.loaded m period window).period ≠ period ↔ p ≠ period.toNat) ∧
      ((e.loaded m period window).window ≠ window ↔ w ≠ window.toNat) := by
  have period' := clampWord_toNat (lo := 10000) (hi := 1000000) period
  have short := (clampNat_bounds (lo := 10000) (hi := 1000000) (by decide) period.toNat).2
  have window' := clampWord_toNat window (Nat.zero_le (clampNat 10000 1000000 period.toNat / 8)) (by omega)
  have read : (e.loaded m period window).window =
      clampWord 0 (clampNat 10000 1000000 period.toNat / 8) window := by
    rw [← period']; rfl
  refine ⟨?_, ?_, ?_⟩
  · rw [Epoch.loaded, period']; rfl
  · rw [Ne, Ne, ← BitVec.toNat_inj, ← period']; rfl
  · rw [Ne, Ne, ← BitVec.toNat_inj, read, window']

theorem exec_loadEpoch (ready : Ready s) (hl : records.length = 13) {t : State} {status : Status} {payload : List Byte}
    (served : loadEpochRecord s.hunting 1 records = ⟨t.hunting, status, payload⟩) :
    exec (.loadEpoch 0xFFFF 0 1 records) s = .next (t.answer 0xFFFF 16 status payload) := by
  refine exec_load (table := 6) (first := 0) (count := 1) ready (by omega) rfl rfl (by decide) (by decide) hl ?_
  have one : (recordsOf records 13 1).headD [] = records := by simp [recordsOf, recordOf, ← hl]
  show loadEpochRecord s.hunting 1 ((recordsOf records 13 1).headD []) = _
  rw [one]
  exact served

/-- Settles O23: the three tables of clamped records, then the epoch record. -/
theorem clampingLoads : Obligations.ClampingLoads := by
  refine ⟨fun s first count records ready short hc => ⟨fun fits hl => ?_, fun fits hl => ?_, fun fits hl => ?_⟩,
    fun s records ready hl => ⟨fun m mode => ?_, fun undefined => ?_⟩⟩
  · have changed := run_clamped rawCurve_take records count.toNat clampCurve fits
    simp only [clampCurve_ne, rawCurve_getElem, ← exists_and_left] at changed
    refine ⟨writeRun s.curves first.toNat (((recordsOf records 34 count.toNat).map rawCurve).map clampCurve),
      fun i k => ?_, exec_clampingLoad ready short (table := 2) rfl rfl hc fits hl (decide_eq_true_iff.trans changed) rfl⟩
    rw [writeRun_getElem, run_getD rawCurve_take]
    split
    · rw [clampCurve_getElem, rawCurve_getElem]
    · rfl
  · refine ⟨writeRun s.profiles first.toNat (((recordsOf records 12 count.toNat).map rawProfile).map clampProfile),
      fun i => ?_, exec_clampingLoad ready short (table := 3) rfl rfl hc fits hl
        (decide_eq_true_iff.trans (run_clamped rawProfile_take records count.toNat clampProfile fits)) rfl⟩
    rw [writeRun_getElem, run_getD rawProfile_take]
  · refine ⟨(loadTimings s first.toNat count.toNat (recordsOf records 18 count.toNat)).state.lines,
      fun i => (loadTimings_line ..).trans ?_, exec_clampingLoad ready short (table := 5) rfl rfl hc fits hl
        (decide_eq_true_iff.trans (run_clamped rawTiming_take records count.toNat clampTiming fits)) rfl⟩
    rw [run_getD rawTiming_take]
    split <;> rfl
  · obtain ⟨loaded, period, window⟩ := s.hunting.epoch.loaded_eq m (u32 records 1) (u32 records 5)
    refine exec_loadEpoch ready hl ?_
    rw [loadEpochRecord, mode]
    dsimp only
    rw [clampStatus, if_congr ((Bool.or_eq_true _ _).to_iff.trans
      (or_congr (decide_eq_true_iff.trans period) (decide_eq_true_iff.trans window))) rfl rfl]
    rw [loaded]
    simp only [epochBytes, List.append_assoc]
    rfl
  · refine exec_loadEpoch (t := s) ready hl ?_
    rw [loadEpochRecord, undefined]
    rfl

end Sys2Proof.Machine
end

section
/-!
SUPPORT. The holder that settlement gives an entry and the presence it is found from, row by row; the count of a class after
raises.
-/

namespace Sys2Proof.Machine

/-! ### The count of a class -/

/-- A raise counts one more, up to 255 (R174). -/
theorem EventRec.raised_count (x : EventRec) (d : Half) : (x.raised d).count.toNat = min 255 (x.count.toNat + 1) := by
  unfold EventRec.raised
  split
  · rename_i zero
    rw [zero]; rfl
  · split
    · rename_i full
      rw [full]; rfl
    · rename_i full
      show (x.count + 1).toNat = _
      bv_omega

/-- The count of a class that is not raised. -/
theorem count_kept {s t : State} {c : EventClass} (same : t.events.get c = s.events.get c) :
    (t.events.get c).count.toNat = min 255 ((s.events.get c).count.toNat + 0) := by
  have byte := (s.events.get c).count.isLt
  rw [same]
  omega

variable (s : State)

theorem count_raised (c : EventClass) (d : Half) :
    ((s.raise c d).events.get c).count.toNat = min 255 ((s.events.get c).count.toNat + 1) := by
  rw [← EventRec.raised_count _ d]
  exact congrArg (fun x : EventRec => x.count.toNat) ((Events.get_put ..).trans (if_pos rfl))

/-- Raises of one class count their number, up to 255 (R174). -/
theorem raiseEach_count (c : EventClass) (ds : List Nat) :
    ((State.raiseEach s c ds).events.get c).count.toNat = min 255 ((s.events.get c).count.toNat + ds.length) := by
  induction ds generalizing s with
  | nil => exact count_kept rfl
  | cons d ds ih =>
    refine (ih (s.raise c (halfOf d))).trans ?_
    rw [count_raised, List.length_cons]
    omega

/-! ### The rows of R50 -/

/-- The presence of a robot among the undecided members is that of its own member (R50). -/
theorem presence_some (e : Zone) (r : RobotNo) (z : Nat) : s.presence s.undecidedMembers e (some r) z =
    presenceOf (s.robot r) (s.member? r) (e.joinedBy r) z := rfl

variable {b : Robot} {m : Member} {joined : Bool}

/-- The row of a robot in a wave state (R50). -/
theorem presenceOf_inWave (wave : b.slot.inWave = true) (x : Option Member) (z : Nat) :
    presenceOf b x joined z = presenceOf.waveCase b x joined z := by
  cases slot : b.slot <;> simp only [presenceOf, slot] <;> rw [slot] at wave <;> cases wave

theorem homeFromUncertain_iff (m : Member) : m.homeFromUncertain = true ↔ m.kind = .home ∧ m.plan.start = none := by
  simp [Member.homeFromUncertain]

theorem linksTo_iff (b : Robot) (z : ZoneId) : b.linksTo z.val = true ↔ ∃ k ∈ b.static.links, k.zone = z := by
  simp [Robot.linksTo, Fin.ext_iff]

theorem intrudes_iff (b : Robot) (z : ZoneId) :
    b.intrudes z.val = true ↔ ∃ k ∈ b.static.links, k.zone = z ∧ k.intrudedAt b.believed.angles = true := by
  simp [Robot.intrudes, Fin.ext_iff]

/-- A robot that homes from UNCERTAIN is UNKNOWN, but in a zone it has no link to and that newly named it (R50, R59). -/
theorem presenceOf_home (wave : b.slot.inWave = true) (kind : m.kind = .home) (start : m.plan.start = none) (z : ZoneId) :
    presenceOf b (some m) joined z.val =
      if joined = true ∧ ∀ k ∈ b.static.links, k.zone ≠ z then .out else .unknown := by
  rw [presenceOf_inWave wave, presenceOf.waveCase, if_pos ((homeFromUncertain_iff m).2 ⟨kind, start⟩)]
  refine if_congr ?_ rfl rfl
  rw [Bool.and_eq_true, Bool.not_eq_true', ← Bool.not_eq_true, linksTo_iff]
  simp

/-- Any other robot in a wave state is IN the zones that its move needs (R50). -/
theorem presenceOf_move (wave : b.slot.inWave = true) (other : m.kind ≠ .home ∨ m.plan.start ≠ none) (z : ZoneId) :
    presenceOf b (some m) joined z.val =
      if z ∈ neededZones b.static.links m.kind m.plan then .isIn else .out := by
  rw [presenceOf_inWave wave, presenceOf.waveCase, if_neg (by rw [homeFromUncertain_iff]; tauto)]
  refine if_congr ?_ rfl rfl
  simp [← Fin.ext_iff]

/-- A robot that newly joins a zone while it is in a wave state, without a link to it, is OUT there (R50, R59). -/
theorem presenceOf_joined_out (wave : b.slot.inWave = true) {z : ZoneId} (apart : ∀ k ∈ b.static.links, k.zone ≠ z) :
    presenceOf b (some m) true z.val = .out := by
  by_cases home : m.kind = .home ∧ m.plan.start = none
  · rw [presenceOf_home wave home.1 home.2, if_pos ⟨rfl, apart⟩]
  · rw [presenceOf_move wave (by tauto), if_neg]
    simp only [neededZones, List.mem_map, List.mem_filter]
    rintro ⟨k, ⟨hk, -⟩, hz⟩
    exact apart k hk hz

/-! ### The holder of a settled entry -/

variable (ms : List Member) {e : Zone}

/-- An entry that no robot's move holds takes its holder from its members' presence (R51). -/
theorem settled_of_unheld (unheld : s.keepsHolder e = false) (z : Nat) : s.settled ms z e =
    { e with holder := holderFrom e (s.presence ms e e.memberA z) (s.presence ms e e.memberB z) } := by
  rw [State.settled, if_neg (by rw [unheld]; decide)]

/-- An entry with one member IN and the other OUT is PARKED by the one that is IN (R51). -/
theorem holderFrom_inA {r : RobotNo} (named : e.memberA = some r) : holderFrom e .isIn .out = .parked r := by
  simp [holderFrom, named]

theorem holderFrom_inB {r : RobotNo} (named : e.memberB = some r) : holderFrom e .out .isIn = .parked r := by
  simp [holderFrom, named]

/-- An entry is settled unless a robot in a wave state holds it MOVING (R51). -/
theorem keepsHolder_false_iff (e : Zone) :
    s.keepsHolder e = false ↔ ∀ r, e.holder = .moving r → (s.robot r).slot.inWave = false := by
  rw [← Bool.not_eq_true, keepsHolder_iff]
  simp

/-- ZONE_CONFLICT is raised once for each selected entry that is settled with both members IN (R52). -/
theorem settleWith_conflicts (sel : Nat → Zone → Bool) :
    ((s.settleWith ms sel).events.get .zoneConflict).count.toNat = min 255 ((s.events.get .zoneConflict).count.toNat +
      ((List.finRange 1024).filter fun z => sel z.val (s.zone z) && s.conflicts ms z.val (s.zone z)).length) := by
  have number := indicesFrom_vector (fun z e => sel z e && s.conflicts ms z e) s.zones
  exact (raiseEach_count _ _ _).trans (by rw [number]; rfl)

end Sys2Proof.Machine
end

section
/-!
O58: settlement follows presence.
-/

namespace Sys2Proof.Machine

/-- Settles O58: the holder of an entry that settles, its conflicts counted, and the rows of R50. -/
theorem settlementFollowsPresence : Obligations.SettlementFollowsPresence := by
  intro s sel
  dsimp only
  refine ⟨fun z kept => ?_, fun z ⟨selected, idle⟩ => ?_, ⟨_, _, settleWith_eq ..⟩, settleWith_conflicts ..,
    (settleWith_events ..).1, fun z r absent => ?_, fun z r uncertain => presence_uncertain _ _ uncertain _ _,
    fun z r idle => ?_, fun z r m wave member kind start => ?_, fun z r m wave member other => ?_, fun _ => rfl⟩
  · rw [State.settle, zone_settleWith]
    split
    · rename_i selected
      rw [State.settled, if_pos]
      rw [← Bool.not_eq_false, keepsHolder_false_iff]
      exact fun idle => kept ⟨selected, idle⟩
    · rfl
  · rw [State.settle, zone_settleWith, if_pos selected, settled_of_unheld _ _ ((keepsHolder_false_iff s _).2 idle)]
    refine ⟨rfl, rfl, fun unknown => holderFrom_unknown _ unknown, fun a b => ?_, fun r named a b => ?_,
      fun r named a b => ?_, fun a b => ?_⟩ <;> rw [a, b]
    · rfl
    · exact holderFrom_inA named
    · exact holderFrom_inB named
    · rfl
  · rw [presence_some, presenceOf, absent]
  · rw [presence_some, presenceOf, idle]
    exact if_congr (intrudes_iff _ z) rfl rfl
  · rw [presence_some, member, presenceOf_home wave kind start]
  · rw [presence_some, member, presenceOf_move wave other]

end Sys2Proof.Machine
end

section
/-!
O25: a LOAD of zone records.
-/

namespace Sys2Proof.Machine

/-! ### The zones of a run -/

/-- In an increasing list the lowest element that satisfies a test is found first. -/
theorem find?_lowest {n : Nat} {l : List (Fin n)} (sorted : l.Pairwise (· < ·)) {p : Fin n → Bool} {z : Fin n} (hz : z ∈ l)
    (holds : p z = true) (lowest : ∀ y ∈ l, y < z → p y = false) : l.find? p = some z := by
  induction l with
  | nil => exact absurd hz List.not_mem_nil
  | cons a l ih =>
    obtain ⟨below, sorted⟩ := List.pairwise_cons.1 sorted
    rcases List.mem_cons.1 hz with rfl | inside
    · exact List.find?_cons_of_pos holds
    · rw [List.find?_cons_of_neg (by rw [lowest a List.mem_cons_self (below z inside)]; decide)]
      exact ih sorted inside fun y hy => lowest y (List.mem_cons_of_mem _ hy)

/-- The indices of a run that lie in a table, in increasing order. -/
theorem runOf_index_sorted (n first count : Nat) : ((runOf first count).filterMap (index? n)).Pairwise (· < ·) := by
  have value {i : Nat} {z : Fin n} (h : index? n i = some z) : z.val = i := by
    unfold index? at h
    split at h
    · rw [← Option.some.inj h]
    · cases h
  have increasing : (runOf first count).Pairwise (· < ·) :=
    List.Pairwise.map _ (fun a b h => Nat.add_lt_add_left h first) List.pairwise_lt_range
  refine increasing.filterMap _ fun a b lt y hy z hz => ?_
  rw [Fin.lt_def, value hy, value hz]
  exact lt

theorem mem_runOf_index {n first count : Nat} {z : Fin n} :
    z ∈ (runOf first count).filterMap (index? n) ↔ first ≤ z.val ∧ z.val < first + count := by
  simp only [runOf, List.mem_filterMap, List.mem_map, List.mem_range]
  constructor
  · rintro ⟨_, ⟨i, hi, rfl⟩, h⟩
    unfold index? at h
    split at h
    · rw [← Option.some.inj h]; dsimp only; omega
    · cases h
  · rintro ⟨h1, h2⟩
    exact ⟨z.val, ⟨z.val - first, by omega, by omega⟩, index?_of_lt z.isLt⟩

/-! ### The lock -/

theorem isMoving_iff (e : Zone) : e.isMoving = true ↔ ∃ r, e.holder = .moving r := by
  unfold Zone.isMoving
  cases e.holder <;> simp

variable (s : State) {first count : Nat}

/-- The lowest zone of a run that is held MOVING locks it (R58). -/
theorem lockedZone_lowest {z : ZoneId} (hz : first ≤ z.val ∧ z.val < first + count) (held : ∃ r, (s.zone z).holder = .moving r)
    (lowest : ∀ y : ZoneId, first ≤ y.val ∧ y.val < first + count → y < z → ¬∃ r, (s.zone y).holder = .moving r) :
    lockedZone s first count = some z := by
  refine find?_lowest (runOf_index_sorted ..) (mem_runOf_index.2 hz) ((isMoving_iff _).2 held) fun y hy lt => ?_
  rw [← Bool.not_eq_true, isMoving_iff]
  exact lowest y (mem_runOf_index.1 hy) lt

theorem lockedZone_none
    (free : ∀ z : ZoneId, first ≤ z.val ∧ z.val < first + count → ¬∃ r, (s.zone z).holder = .moving r) :
    lockedZone s first count = none :=
  List.find?_eq_none.2 fun z hz => mt (isMoving_iff _).1 (free z (mem_runOf_index.1 hz))

/-! ### The tests of R58 -/

/-- A zone's record leaves out no present robot that links to the zone (R58). -/
theorem orphanLink_false_iff {z : ZoneId} {a b : Option RobotNo} : orphanLink s z.val a b = false ↔
    ∀ r, (s.robot r).static.present = true → (∃ k ∈ (s.robot r).static.links, k.zone = z) → a = some r ∨ b = some r := by
  constructor
  · rintro h r present ⟨k, hk, hz⟩
    exact orphanLink_false h present hk (congrArg Fin.val hz)
  · intro h
    rw [orphanLink, Bool.not_eq_false', List.isEmpty_iff, List.eq_nil_iff_forall_not_mem]
    intro i hi
    obtain ⟨j, hj, rfl, test⟩ := (mem_indicesFrom ..).1 hi
    rw [Vector.length_toList] at hj
    have robot : s.robots.toList[j]'(by simpa using hj) = s.robot ⟨j, hj⟩ := by simp [State.robot]
    rw [robot] at test
    simp only [Bool.and_eq_true, List.any_eq_true, decide_eq_true_eq, Bool.not_eq_true', Nat.zero_add] at test
    obtain ⟨⟨⟨present, k, hk, hz⟩, notA⟩, notB⟩ := test
    rcases h ⟨j, hj⟩ present ⟨k, hk, Fin.ext hz⟩ with rfl | rfl
    · simp at notA
    · simp at notB

/-- The members that a record gives its zone when it passes the tests of R58. -/
theorem zoneMembers_iff {z : ZoneId} {bs : List Byte} {m : Option RobotNo × Option RobotNo} :
    zoneMembers s z.val bs = some m ↔
      memberField (u16 bs 0) = some m.1 ∧ memberField (u16 bs 2) = some m.2 ∧ (m.1.isSome = true → m.1 ≠ m.2) ∧
        ∀ r, (s.robot r).static.present = true → (∃ k ∈ (s.robot r).static.links, k.zone = z) → m.1 = some r ∨ m.2 = some r := by
  obtain ⟨a, b⟩ := m
  rw [← orphanLink_false_iff]
  unfold zoneMembers
  split
  · rename_i x y hx hy
    rw [hx, hy, Option.ite_none_left_eq_some]
    simp only [Option.some.injEq, Prod.mk.injEq, Bool.or_eq_true, not_or, Bool.and_eq_true, decide_eq_true_eq, not_and,
      Bool.not_eq_true]
    constructor
    · rintro ⟨⟨apart, linked⟩, rfl, rfl⟩
      exact ⟨rfl, rfl, apart, linked⟩
    · rintro ⟨rfl, rfl, apart, linked⟩
      exact ⟨⟨apart, linked⟩, rfl, rfl⟩
  · rename_i undefined
    exact iff_of_false nofun fun ⟨hx, hy, _⟩ => undefined a b hx hy

/-- The first record of a run that fails a test of R58. -/
theorem zoneRange_error {s : State} {z e : Nat} {xs : List (List Byte)} (h : zoneRange s z xs = .error e) :
    ∃ i x, e = z + i ∧ xs[i]? = some x ∧ zoneMembers s (z + i) x = none ∧
      ∀ j y, j < i → xs[j]? = some y → ∃ m, zoneMembers s (z + j) y = some m := by
  induction xs generalizing z with
  | nil => cases h
  | cons x xs ih =>
    unfold zoneRange at h
    split at h
    · rename_i failed
      obtain rfl := Except.error.inj h
      exact ⟨0, x, rfl, rfl, failed, nofun⟩
    · rename_i m passed
      split at h
      · rename_i later
        obtain rfl := Except.error.inj h
        obtain ⟨i, y, rfl, hy, failed, before⟩ := ih later
        refine ⟨i + 1, y, by omega, hy, by rwa [Nat.add_right_comm, Nat.add_assoc] at failed, fun j v lt hv => ?_⟩
        cases j with
        | zero =>
          obtain rfl := Option.some.inj hv
          exact ⟨m, passed⟩
        | succ j =>
          have := before j v (Nat.lt_of_succ_lt_succ lt) hv
          rwa [Nat.add_right_comm, Nat.add_assoc] at this
      · cases h

theorem zoneRange_length {s : State} {z : Nat} {xs : List (List Byte)} {ms : List (Option RobotNo × Option RobotNo)}
    (h : zoneRange s z xs = .ok ms) : ms.length = xs.length := by
  induction xs generalizing z ms with
  | nil => rw [← Except.ok.inj h]; rfl
  | cons x xs ih =>
    unfold zoneRange at h
    split at h
    · cases h
    · split at h
      · cases h
      · rename_i later
        rw [← Except.ok.inj h, List.length_cons, ih later, List.length_cons]

variable {s}

/-- Record `i` of a run of zone records. -/
theorem zoneRecord_getElem {records : List Byte} {i : Nat} (hi : i < count) :
    (recordsOf records 4 count)[i]? = some ((records.drop (i * 4)).take 4) := by
  rw [recordsOf, List.getElem?_map, List.getElem?_range hi]
  rfl

/-- A run whose first failing record is that of zone `z` (R58). -/
theorem zoneRange_fails {records : List Byte} {z : ZoneId} (hz : first ≤ z.val ∧ z.val < first + count)
    (fails : zoneMembers s z.val ((records.drop ((z.val - first) * 4)).take 4) = none)
    (passed : ∀ y : ZoneId, first ≤ y.val ∧ y.val < first + count → y < z →
      ∃ m, zoneMembers s y.val ((records.drop ((y.val - first) * 4)).take 4) = some m) :
    zoneRange s first (recordsOf records 4 count) = .error z.val := by
  cases h : zoneRange s first (recordsOf records 4 count) with
  | ok ms =>
    have here : z.val - first < ms.length := by rw [zoneRange_length h, recordsOf, List.length_map, List.length_range]; omega
    obtain ⟨x, hx, hm⟩ := zoneRange_ok h (List.getElem?_eq_getElem here)
    rw [zoneRecord_getElem (by omega)] at hx
    rw [Nat.add_sub_cancel' hz.1, ← Option.some.inj hx, fails] at hm
    cases hm
  | error e =>
    obtain ⟨i, x, rfl, hx, failed, before⟩ := zoneRange_error h
    rcases Nat.lt_trichotomy i (z.val - first) with lt | eq | gt
    · obtain ⟨m, hm⟩ := passed ⟨first + i, by omega⟩ ⟨by dsimp only; omega, by dsimp only; omega⟩
        (by rw [Fin.lt_def]; dsimp only; omega)
      rw [zoneRecord_getElem (by omega)] at hx
      dsimp only at hm
      rw [Nat.add_sub_cancel_left, Option.some.inj hx, failed] at hm
      cases hm
    · rw [eq, Nat.add_sub_cancel' hz.1]
    · obtain ⟨m, hm⟩ := before _ _ gt (zoneRecord_getElem (by omega))
      rw [Nat.add_sub_cancel' hz.1, fails] at hm
      cases hm

/-- A run whose records all pass gives each entry its members (R58). -/
theorem zoneRange_passes {records : List Byte} (fits : first + count ≤ 1024) {m : ZoneId → Option RobotNo × Option RobotNo}
    (passed : ∀ z : ZoneId, first ≤ z.val ∧ z.val < first + count →
      zoneMembers s z.val ((records.drop ((z.val - first) * 4)).take 4) = some (m z)) :
    ∃ ms, zoneRange s first (recordsOf records 4 count) = .ok ms ∧
      (∀ i m, ms[i]? = some m → i < count) ∧
      ∀ z : ZoneId, first ≤ z.val ∧ z.val < first + count → ms[z.val - first]? = some (m z) := by
  have length : (recordsOf records 4 count).length = count := by simp [recordsOf]
  cases h : zoneRange s first (recordsOf records 4 count) with
  | ok ms =>
    have all : ms.length = count := (zoneRange_length h).trans length
    refine ⟨ms, rfl, fun i m hm => all ▸ (List.getElem?_eq_some_iff.1 hm).1, fun z hz => ?_⟩
    have here : z.val - first < ms.length := by omega
    obtain ⟨x, hx, hm⟩ := zoneRange_ok h (List.getElem?_eq_getElem here)
    rw [zoneRecord_getElem (by omega)] at hx
    rw [Nat.add_sub_cancel' hz.1, ← Option.some.inj hx, passed z hz] at hm
    rw [List.getElem?_eq_getElem here, ← Option.some.inj hm]
  | error e =>
    obtain ⟨i, x, rfl, hx, failed, -⟩ := zoneRange_error h
    have inside : i < count := length ▸ (List.getElem?_eq_some_iff.1 hx).1
    have good := passed ⟨first + i, by omega⟩ ⟨by dsimp only; omega, by dsimp only; omega⟩
    rw [zoneRecord_getElem inside] at hx
    dsimp only at good
    rw [Nat.add_sub_cancel_left, Option.some.inj hx, failed] at good
    cases good

/-! ### What a load that passes leaves -/

/-- The state that a LOAD of zone records leaves: the members of the run written, its entries settled (R58, R59). -/
def loadedZones (s : State) (first count : Nat) (ms : List (Option RobotNo × Option RobotNo)) : State :=
  State.settle { s with zones := mapTable (withMembers s first ms) s.zones } fun i _ =>
    decide (first ≤ i) && decide (i < first + count)

variable {ms : List (Option RobotNo × Option RobotNo)}

theorem loadZones_passed {records : List (List Byte)} (unlocked : lockedZone s first count = none)
    (passed : zoneRange s first records = .ok ms) :
    loadZones s first count records = ⟨loadedZones s first count ms, .ok, le16 (halfOf count)⟩ := by
  unfold loadZones
  rw [unlocked]
  dsimp only
  rw [passed]
  rfl

/-- A load changes the zones and the events alone. -/
theorem loadedZones_changes : ∃ (zones : Vector Zone 1024) (events : Events),
    loadedZones s first count ms = { s with zones := zones, events := events } ∧ events.masks = s.events.masks :=
  ⟨_, _, settleWith_eq .., (settleWith_events ..).2⟩

/-- The run's entries written, before they are settled. -/
theorem zone_withMembers (z : ZoneId) : State.zone { s with zones := mapTable (withMembers s first ms) s.zones } z =
    withMembers s first ms z.val (s.zone z) := mapTable_getElem_fin _ s.zones z

theorem loadedZones_outside (run : ∀ i m, ms[i]? = some m → i < count) {z : ZoneId}
    (hz : ¬(first ≤ z.val ∧ z.val < first + count)) : (loadedZones s first count ms).zone z = s.zone z := by
  have unselected : ¬(decide (first ≤ z.val) && decide (z.val < first + count)) = true := by simpa using hz
  rw [loadedZones, State.settle, zone_settleWith, if_neg unselected, zone_withMembers]
  rcases withMembers_cases s first ms z.val (s.zone z) with same | ⟨ge, m, hm, -⟩
  · exact same
  · have := run _ m hm
    omega

/-- An entry of the run has its new members, and its holder from their presence (R51, R59). -/
theorem loadedZones_inside {z : ZoneId} (hz : first ≤ z.val ∧ z.val < first + count)
    (free : ¬∃ r, (s.zone z).holder = .moving r) {m : Option RobotNo × Option RobotNo} (hm : ms[z.val - first]? = some m) :
    let e := s.renamed (s.zone z) m.1 m.2
    (loadedZones s first count ms).zone z = { e with
      holder := holderFrom e (s.presence s.undecidedMembers e m.1 z.val) (s.presence s.undecidedMembers e m.2 z.val) } := by
  have selected : (decide (first ≤ z.val) && decide (z.val < first + count)) = true := by simpa using hz
  have written : withMembers s first ms z.val (s.zone z) = s.renamed (s.zone z) m.1 m.2 := by
    rw [withMembers, if_pos hz.1, hm]
  rw [loadedZones, State.settle, zone_settleWith, if_pos selected, zone_withMembers, written, settled_of_unheld]
  · rfl
  · rw [keepsHolder_false_iff]
    exact fun r hr => absurd ⟨r, hr⟩ free

/-- A LOAD of zone records is answered by the tests of its run. -/
theorem exec_loadZone {first count : Half} {records : List Byte} (ready : Ready s) (short : records.length + 5 ≤ 512)
    (hc : count.toNat ≠ 0) (fits : first.toNat + count.toNat ≤ 1024) (hl : records.length = count.toNat * 4) {t : State}
    {status : Status} {payload : List Byte}
    (served : loadZones s.hunting first.toNat count.toNat (recordsOf records 4 count.toNat) = ⟨t.hunting, status, payload⟩) :
    exec (.loadZone 0xFFFF first count records) s = .next (t.answer 0xFFFF 16 status payload) :=
  exec_load ready short (table := 4) rfl rfl hc fits hl served

/-- Settles O25: the lock, the first record that fails, and the entries of a run that passes. -/
theorem zoneLoad : Obligations.ZoneLoad := by
  intro s first count records ready short hc fits hl
  dsimp only
  refine ⟨fun z hz held lowest => ?_, fun free => ?_⟩
  · refine exec_loadZone (t := s) ready short hc fits hl ?_
    rw [loadZones, lockedZone_lowest s.hunting hz held lowest]
    rfl
  have unlocked := lockedZone_none s.hunting free
  simp only [← zoneMembers_iff s]
  refine ⟨fun z hz fails passed => ?_, fun m passed => ?_⟩
  · refine exec_loadZone (t := s) ready short hc fits hl ?_
    have failed := zoneRange_fails (s := s.hunting) hz (Option.eq_none_iff_forall_ne_some.2 fails) passed
    rw [loadZones, unlocked]
    dsimp only
    rw [failed]
    rfl
  · obtain ⟨ms, range, run, members⟩ := zoneRange_passes (s := s.hunting) fits passed
    obtain ⟨zones, events, loaded, masks⟩ := loadedZones_changes (s := s.hunting) (first := first.toNat)
      (count := count.toNat) (ms := ms)
    have zone (z : ZoneId) : zones[z] = (loadedZones s.hunting first.toNat count.toNat ms).zone z := by rw [loaded]; rfl
    refine ⟨zones, events, exec_loadZone ready short hc fits hl ?_, masks,
      fun z hz => (zone z).trans (loadedZones_outside run hz), fun z hz => ?_⟩
    · rw [loadZones_passed unlocked range, loaded, show halfOf count.toNat = count from BitVec.ofNat_toNat ..]
      rfl
    · have entry := (zone z).trans (loadedZones_inside (s := s.hunting) hz (free z hz) (members z hz))
      have joined (r : RobotNo) : zones[z].joinedBy r = (zones[z].names r &&
          if (s.zone z).names r then (s.zone z).joinedBy r else (s.robot r).slot.inWave) := by
        rw [entry]; exact State.renamed_joinedBy ..
      refine ⟨by rw [entry]; rfl, by rw [entry]; rfl, by rw [entry]; rfl, joined, fun r named new wave member apart => ?_⟩
      obtain ⟨x, hx⟩ := Option.isSome_iff_exists.1 member
      have newly : zones[z].joinedBy r = true := by rw [joined, named, new]; exact wave
      rw [presence_some, newly, hx]
      exact presenceOf_joined_out wave apart

end Sys2Proof.Machine
end

section
/-!
SUPPORT. A candidate of a commit: the tests of R70 in their order, and what its admission changes.
-/

namespace Sys2Proof.Machine

/-! ### The tests of R70 -/

theorem kind_eq_home_iff (x : MoveWhat) : x.kind = .home ↔ x = .home := by cases x <;> simp [MoveWhat.kind]

theorem kind_eq_retrace_iff (x : MoveWhat) : x.kind = .retrace ↔ x = .retrace := by cases x <;> simp [MoveWhat.kind]

/-- A candidate passes the tests that come before its plan (R70). -/
structure Plannable (s : State) (m : MoveRecord) : Prop where
  present : (s.robot m.robot).slot ≠ .absent
  enabled : (s.robot m.robot).static.enable = true
  up : (s.line (s.robot m.robot).static.line).state ≠ .down
  located : m.what.kind ≠ .home → (s.robot m.robot).slot ≠ .uncertain
  stacked : m.what.kind = .retrace → (s.robot m.robot).stack ≠ []

variable {s : State} {m : MoveRecord}

theorem judge_absent (absent : (s.robot m.robot).slot = .absent) : s.judgeCandidate m = .drop .absent := if_pos absent

theorem judge_disabled (present : (s.robot m.robot).slot ≠ .absent) (disabled : (s.robot m.robot).static.enable = false) :
    s.judgeCandidate m = .drop .disabled := (if_neg present).trans (if_pos disabled)

section
variable (present : (s.robot m.robot).slot ≠ .absent) (enabled : (s.robot m.robot).static.enable = true)
include present enabled

theorem judge_lineDown (down : (s.line (s.robot m.robot).static.line).state = .down) :
    s.judgeCandidate m = .drop .lineDown := by
  rw [State.judgeCandidate, if_neg present, if_neg (by rw [enabled]; decide), if_pos down]

variable (up : (s.line (s.robot m.robot).static.line).state ≠ .down)
include up

theorem judge_uncertain (kind : m.what.kind ≠ .home) (uncertain : (s.robot m.robot).slot = .uncertain) :
    s.judgeCandidate m = .drop .uncertain := by
  rw [State.judgeCandidate, if_neg present, if_neg (by rw [enabled]; decide), if_neg up,
    if_pos ⟨mt (kind_eq_home_iff _).2 kind, uncertain⟩]

theorem judge_empty (kind : m.what.kind = .retrace) (located : (s.robot m.robot).slot ≠ .uncertain)
    (empty : (s.robot m.robot).stack = []) : s.judgeCandidate m = .drop .empty := by
  rw [State.judgeCandidate, if_neg present, if_neg (by rw [enabled]; decide), if_neg up, if_neg fun h => located h.2,
    if_pos ⟨(kind_eq_retrace_iff _).1 kind, empty⟩]

end

namespace Plannable

/-- A plannable candidate is judged by its plan and its zones (R70). -/
theorem judge (h : Plannable s m) :
    (planCandidate s m = .fenced → s.judgeCandidate m = .drop .fenced) ∧
    (planCandidate s m = .long → s.judgeCandidate m = .drop .long) ∧
    (planCandidate s m = .null → s.judgeCandidate m = .null) ∧
    ∀ p, planCandidate s m = .plan p → s.judgeCandidate m =
      if s.canTake m.robot (neededZones (s.robot m.robot).static.links m.what.kind p) then .admitted p else .defer := by
  have located : ¬(m.what ≠ .home ∧ (s.robot m.robot).slot = .uncertain) := fun k =>
    h.located (mt (kind_eq_home_iff _).1 k.1) k.2
  have stacked : ¬(m.what = .retrace ∧ (s.robot m.robot).stack = []) := fun k =>
    h.stacked ((kind_eq_retrace_iff _).2 k.1) k.2
  rw [State.judgeCandidate, if_neg h.present, if_neg (by rw [h.enabled]; decide), if_neg h.up, if_neg located,
    if_neg stacked]
  refine ⟨fun e => ?_, fun e => ?_, fun e => ?_, fun p e => ?_⟩ <;> rw [e]

/-- The tests before the plan read the robot and the state of its line alone. -/
theorem congr {t : State} (h : Plannable s m) (robot : t.robot m.robot = s.robot m.robot)
    (state : ∀ l, (t.line l).state = (s.line l).state) : Plannable t m := by
  obtain ⟨present, enabled, up, located, stacked⟩ := h
  rw [← robot] at present enabled located stacked
  exact ⟨present, enabled, by rw [state, robot]; exact up, located, stacked⟩

end Plannable

/-- How the tests of R70 can end: a drop for a reason of their own, or the judgement of a plannable candidate. -/
theorem judgeCandidate_cases (s : State) (m : MoveRecord) :
    (∃ why, s.judgeCandidate m = .drop why ∧ why ≠ .expired ∧ why ≠ .overflow) ∨
    s.judgeCandidate m = .null ∨
    Plannable s m ∧ ∃ p, planCandidate s m = .plan p ∧ s.judgeCandidate m =
      if s.canTake m.robot (neededZones (s.robot m.robot).static.links m.what.kind p) then .admitted p else .defer := by
  by_cases present : (s.robot m.robot).slot = .absent
  · exact .inl ⟨_, judge_absent present, nofun, nofun⟩
  cases enabled : (s.robot m.robot).static.enable with
  | false => exact .inl ⟨_, judge_disabled present enabled, nofun, nofun⟩
  | true =>
    by_cases up : (s.line (s.robot m.robot).static.line).state = .down
    · exact .inl ⟨_, judge_lineDown present enabled up, nofun, nofun⟩
    by_cases located : m.what.kind ≠ .home ∧ (s.robot m.robot).slot = .uncertain
    · exact .inl ⟨_, judge_uncertain present enabled up located.1 located.2, nofun, nofun⟩
    by_cases stacked : m.what.kind = .retrace ∧ (s.robot m.robot).stack = []
    · have known : (s.robot m.robot).slot ≠ .uncertain := fun k => located ⟨by rw [stacked.1]; decide, k⟩
      exact .inl ⟨_, judge_empty present enabled up stacked.1 known stacked.2, nofun, nofun⟩
    have plannable : Plannable s m := ⟨present, enabled, up, fun a b => located ⟨a, b⟩, fun a b => stacked ⟨a, b⟩⟩
    obtain ⟨fenced, long, null, plan⟩ := plannable.judge
    cases result : planCandidate s m with
    | fenced => exact .inl ⟨_, fenced result, nofun, nofun⟩
    | long => exact .inl ⟨_, long result, nofun, nofun⟩
    | null => exact .inr (.inl (null result))
    | plan p => exact .inr (.inr ⟨plannable, p, rfl, plan p result⟩)

theorem drop_reason {why : Reason} (h : s.judgeCandidate m = .drop why) : why ≠ .expired ∧ why ≠ .overflow := by
  rcases judgeCandidate_cases s m with ⟨x, judged, reason⟩ | judged | ⟨-, p, -, judged⟩
  · rw [judged] at h
    exact Disposition.drop.inj h ▸ reason
  · rw [judged] at h; cases h
  · rw [judged] at h; split at h <;> cases h

theorem canTake_iff (s : State) (r : RobotNo) (zs : List ZoneId) :
    s.canTake r zs = true ↔ ∀ z ∈ zs, (s.zone z).holder = .free ∨ (s.zone z).holder = .parked r := by
  simp [State.canTake, Zone.takeable]

/-- What an admitted candidate has passed (R70). -/
theorem admitted_passed {p : Plan} (h : s.judgeCandidate m = .admitted p) : Plannable s m ∧ planCandidate s m = .plan p ∧
    ∀ z ∈ neededZones (s.robot m.robot).static.links m.what.kind p,
      (s.zone z).holder = .free ∨ (s.zone z).holder = .parked m.robot := by
  rcases judgeCandidate_cases s m with ⟨x, judged, -⟩ | judged | ⟨plannable, q, planned, judged⟩
  · rw [judged] at h; cases h
  · rw [judged] at h; cases h
  · rw [judged] at h
    split at h
    · rename_i takes
      obtain rfl := Disposition.admitted.inj h
      exact ⟨plannable, planned, (canTake_iff ..).1 takes⟩
    · cases h

/-- A plan reads its robot and the profiles alone. -/
theorem planCandidate_congr {t : State} (robot : t.robot m.robot = s.robot m.robot) (profiles : t.profiles = s.profiles) :
    planCandidate t m = planCandidate s m := by
  unfold planCandidate State.profile
  rw [robot, profiles]

/-- From UNCERTAIN only a HOME is planned; it has no start, and so it needs no zone (R34, R48). -/
theorem plan_of_uncertain {p : Plan} (h : Plannable s m) (planned : planCandidate s m = .plan p)
    (uncertain : (s.robot m.robot).slot = .uncertain) : m.what.kind = .home ∧ p.start = none ∧
      ∀ links, neededZones links m.what.kind p = [] := by
  have kind : m.what.kind = .home := by
    by_contra other
    exact h.located other uncertain
  have start : p.start = none := by
    rw [planCandidate, (kind_eq_home_iff _).1 kind] at planned
    rw [← PlanResult.plan.inj planned, planHome, if_pos uncertain]
  refine ⟨kind, start, fun links => ?_⟩
  simp [neededZones, Link.neededBy, start]

/-! ### What an admission changes -/

theorem zone_takeZones (s : State) (r : RobotNo) (zs : List ZoneId) (z : ZoneId) :
    (s.takeZones r zs).zone z = if z ∈ zs then { s.zone z with holder := .moving r } else s.zone z := by
  induction zs generalizing s with
  | nil => rfl
  | cons y zs ih =>
    refine (ih _).trans ?_
    rw [zone_setZone]
    by_cases here : y = z
    · subst here
      simp
    · simp [here, Ne.symm here]

theorem takeZones_eq (s : State) (r : RobotNo) (zs : List ZoneId) :
    s.takeZones r zs = { s with zones := (s.takeZones r zs).zones } := by
  induction zs generalizing s with
  | nil => rfl
  | cons z zs ih => exact ih _

/-- The zones of an admitted candidate taken, its robot ARMING, its DELIVER listed (R56, R72). -/
def State.underWay (s : State) (m : MoveRecord) (p : Plan) : State :=
  ((s.takeZones m.robot (neededZones (s.robot m.robot).static.links m.what.kind p)).modRobot m.robot fun b =>
    { b with rest := (newMember s m p).rest, slot := .arming }).offerDeliver m.robot

variable (run : CommitRun) (p : Plan)

/-- An admission, with the settlement that a HOME from UNCERTAIN adds (R53, R72; log entry 20). -/
theorem admitCandidate_fst : (admitCandidate s run m p).1 =
    if (s.robot m.robot).slot = .uncertain then
      ((s.underWay m p).forgetJoins m.robot).settleWith (run.members ++ [newMember s m p]) fun _ e => e.names m.robot
    else s.underWay m p := rfl

theorem admitCandidate_snd : (admitCandidate s run m p).2.members = run.members ++ [newMember s m p] := rfl

theorem underWay_robot (q : RobotNo) : (s.underWay m p).robot q =
    if m.robot = q then { s.robot q with
      rest := if (s.robot q).slot = .uncertain then .uncertain else .idle, slot := .arming } else s.robot q := by
  have written : (s.underWay m p).robot q = ((s.takeZones m.robot (neededZones (s.robot m.robot).static.links
      m.what.kind p)).modRobot m.robot fun b => { b with rest := (newMember s m p).rest, slot := .arming }).robot q := rfl
  rw [written, robot_modRobot, robot_congr (takeZones_robots s ..)]
  by_cases same : m.robot = q
  · subst same
    rfl
  · rw [if_neg same, if_neg same]

theorem underWay_line (l : LineNo) : (s.underWay m p).line l =
    if (s.robot m.robot).static.line = l then
      if (s.line l).state = .down then s.line l
      else { s.line l with normal := offerDeliverTo (s.line l).normal m.robot }
    else s.line l := by
  refine (line_modLine ..).trans ?_
  rw [State.lineOf, robot_modRobot, if_pos rfl, robot_congr (takeZones_robots s ..)]
  have line : ∀ f, State.line ((s.takeZones m.robot (neededZones (s.robot m.robot).static.links m.what.kind p)).modRobot
      m.robot f) l = s.line l := fun f => by rw [takeZones_eq]; rfl
  rw [line]

theorem underWay_events : (s.underWay m p).events = s.events := by
  show (s.takeZones ..).events = _
  rw [takeZones_eq]

theorem underWay_zone (z : ZoneId) : (s.underWay m p).zone z =
    if z ∈ neededZones (s.robot m.robot).static.links m.what.kind p then { s.zone z with holder := .moving m.robot }
    else s.zone z := zone_takeZones ..

/-- The robot of an admitted candidate is ARMING with its rest state written, and no other robot changes (R10, R72). -/
theorem admitCandidate_robot (q : RobotNo) : (admitCandidate s run m p).1.robot q =
    if m.robot = q then { s.robot q with
      rest := if (s.robot q).slot = .uncertain then .uncertain else .idle, slot := .arming } else s.robot q := by
  rw [← underWay_robot, admitCandidate_fst]
  split
  · exact settleWith_robot ..
  · rfl

theorem admitCandidate_line (l : LineNo) : (admitCandidate s run m p).1.line l =
    if (s.robot m.robot).static.line = l then
      if (s.line l).state = .down then s.line l
      else { s.line l with normal := offerDeliverTo (s.line l).normal m.robot }
    else s.line l := by
  rw [← underWay_line (p := p), admitCandidate_fst]
  split
  · exact settleWith_line ..
  · rfl

/-- An admission raises at most ZONE_CONFLICT (R52). -/
theorem admitCandidate_events {c : EventClass} (hc : c ≠ .zoneConflict) :
    (admitCandidate s run m p).1.events.get c = s.events.get c := by
  rw [← underWay_events (s := s) (m := m) (p := p), admitCandidate_fst]
  split
  · exact (settleWith_events ..).1 c hc
  · rfl

theorem admitCandidate_deferred : (admitCandidate s run m p).1.deferred = s.deferred := by
  have kept : (s.underWay m p).deferred = s.deferred := by
    show (s.takeZones ..).deferred = _
    rw [takeZones_eq]
  rw [← kept, admitCandidate_fst]
  split
  · exact settleWith_deferred ..
  · rfl

/-- A member UNKNOWN to its entry settles it to BLOCKED, unless a robot's move keeps it (R51). -/
theorem settled_unknown {ms : List Member} {e : Zone} {r : RobotNo} {z : Nat} (named : e.names r = true)
    (unknown : s.presence ms e (some r) z = .unknown) :
    s.settled ms z e = if s.keepsHolder e then e else { e with holder := .blocked } := by
  unfold State.settled
  rw [holderFrom_unknown]
  simp only [Zone.names, Bool.or_eq_true, decide_eq_true_eq] at named
  exact named.imp (fun h => by rw [h]; exact unknown) fun h => by rw [h]; exact unknown

/-- A robot is UNKNOWN in every zone when its HOME from UNCERTAIN has been admitted (R50, R54; log entry 35). -/
theorem presence_homing (plannable : Plannable s m) (planned : planCandidate s m = .plan p)
    (uncertain : (s.robot m.robot).slot = .uncertain) {members : List Member} (first : ∀ q ∈ members, q.robot ≠ m.robot)
    (e : Zone) (z : ZoneId) : ((s.underWay m p).forgetJoins m.robot).presence (members ++ [newMember s m p])
      (e.forgetJoin m.robot) (some m.robot) z.val = .unknown := by
  obtain ⟨kind, start, -⟩ := plan_of_uncertain plannable planned uncertain
  have found : (members ++ [newMember s m p]).find? (fun q => decide (q.robot = m.robot)) = some (newMember s m p) := by
    rw [List.find?_append, List.find?_eq_none.2 fun q hq => by simpa using first q hq]
    simp [newMember]
  have arming : (((s.underWay m p).forgetJoins m.robot).robot m.robot).slot.inWave = true := by
    show ((s.underWay m p).robot m.robot).slot.inWave = true
    rw [underWay_robot, if_pos rfl]
    rfl
  unfold State.presence
  dsimp only
  rw [found, Zone.forgetJoin_joinedBy, presenceOf_home arming kind start, if_neg (by simp)]

/-- The holders after an admission: from UNCERTAIN the zones that name the robot are BLOCKED, but those that a robot in a wave
state holds MOVING (R53, R54); otherwise the needed zones are held MOVING (R56). -/
theorem admitCandidate_holder (plannable : Plannable s m) (planned : planCandidate s m = .plan p)
    (first : (s.robot m.robot).slot = .uncertain → ∀ q ∈ run.members, q.robot ≠ m.robot) (z : ZoneId) :
    ((admitCandidate s run m p).1.zone z).holder =
      if (s.robot m.robot).slot = .uncertain then
        if (s.zone z).names m.robot = true ∧ (s.underWay m p).keepsHolder (s.zone z) = false then .blocked
        else (s.zone z).holder
      else if z ∈ neededZones (s.robot m.robot).static.links m.what.kind p then .moving m.robot else (s.zone z).holder := by
  rw [admitCandidate_fst]
  by_cases uncertain : (s.robot m.robot).slot = .uncertain
  · obtain ⟨-, -, none⟩ := plan_of_uncertain plannable planned uncertain
    have entry : ((s.underWay m p).forgetJoins m.robot).zone z = (s.zone z).forgetJoin m.robot := by
      rw [zone_forgetJoins, underWay_zone, none, if_neg List.not_mem_nil]
    have same : ((s.zone z).forgetJoin m.robot).names m.robot = (s.zone z).names m.robot := rfl
    rw [if_pos uncertain, if_pos uncertain, zone_settleWith, entry, same]
    by_cases named : (s.zone z).names m.robot = true
    · have keeps : ((s.underWay m p).forgetJoins m.robot).keepsHolder ((s.zone z).forgetJoin m.robot) =
          (s.underWay m p).keepsHolder (s.zone z) := rfl
      rw [if_pos named, settled_unknown (r := m.robot) (same.trans named)
        (presence_homing p plannable planned uncertain (first uncertain) _ z), keeps]
      cases (s.underWay m p).keepsHolder (s.zone z) with
      | true => rw [if_pos rfl, if_neg fun h => Bool.noConfusion h.2]; rfl
      | false => rw [if_neg Bool.noConfusion, if_pos ⟨named, rfl⟩]
    · rw [if_neg named, if_neg fun h => named h.1]
      rfl
  · rw [if_neg uncertain, if_neg uncertain, underWay_zone]
    split <;> rfl

end Sys2Proof.Machine
end

section
/-!
SUPPORT. What a commit that has examined some of its candidates keeps of the zones, the slot states and the DELIVERs, said once for
any number of candidates (`Advances`).
-/

namespace Sys2Proof.Machine

/-- The zones that a member's move needs (R49). -/
def State.needs (s : State) (q : Member) : List ZoneId := neededZones (s.robot q.robot).static.links q.kind q.plan

/-- A line's normal list holds robot `r`'s DELIVER. -/
def Line.delivers (e : Line) (r : RobotNo) : Prop := ∃ x ∈ e.normal, x.robot = r ∧ x.deliver = true

theorem delivers_offered (e : Line) (r : RobotNo) : ({ e with normal := offerDeliverTo e.normal r }).delivers r :=
  ⟨_, List.mem_append_right _ (List.mem_singleton_self _), rfl, rfl⟩

/-- A DELIVER stays listed when another is offered (R120). -/
theorem delivers_offer {e : Line} {q : RobotNo} (h : e.delivers q) (r : RobotNo) :
    ({ e with normal := offerDeliverTo e.normal r }).delivers q := by
  obtain ⟨x, hx, robot, deliver⟩ := h
  by_cases same : x.robot = r
  · rw [← robot, same]
    exact delivers_offered e r
  · exact ⟨x, List.mem_append_left _ (List.mem_filter.2 ⟨hx, by simpa using same⟩), robot, deliver⟩

/-- From `s` to `t` a commit has examined candidates `cs` and admitted members `ms`. A zone held MOVING by a robot in a wave state
and a BLOCKED one stay so; any other keeps its holder, or is held MOVING or BLOCKED since a member admitted needs it or a robot that
homes from UNCERTAIN is named by it. -/
structure Advances (cs : List Candidate) (ms : List Member) (s t : State) : Prop where
  judged : Judged s t
  slot : ∀ q, (t.robot q).slot = (s.robot q).slot ∨ (t.robot q).slot = .arming
  moving : ∀ z q, (s.zone z).holder = .moving q → (s.robot q).slot.inWave = true → (t.zone z).holder = .moving q
  blocked : ∀ z, (s.zone z).holder = .blocked → (t.zone z).holder = .blocked
  holder : ∀ z, (t.zone z).holder = (s.zone z).holder ∨
    ((t.zone z).holder = .blocked ∨ ∃ q, (t.zone z).holder = .moving q) ∧
      ((∃ q ∈ ms, z ∈ s.needs q) ∨
        ∃ c ∈ cs, (s.robot c.record.robot).slot = .uncertain ∧ (s.zone z).names c.record.robot = true)
  listed : ∀ l r, (s.line l).delivers r → (t.line l).delivers r
  admitted : ∀ q ∈ ms, q.late = false ∧ (t.robot q.robot).slot = .arming ∧
    ∀ z ∈ s.needs q, (t.zone z).holder = .moving q.robot

theorem setLast_slot (s : State) (r q : RobotNo) (o : Ending) (why : Reason) :
    ((s.setLast r o why).robot q).slot = (s.robot q).slot := by
  rw [State.setLast, robot_modRobot]
  split <;> rfl

namespace Advances

variable {s t u : State} {cs ds : List Candidate} {ms ns : List Member}

theorem inWave (h : Advances cs ms s t) {q : RobotNo} (wave : (s.robot q).slot.inWave = true) :
    (t.robot q).slot.inWave = true := by
  rcases h.slot q with e | e <;> rw [e]
  · exact wave
  · rfl

theorem arming (h : Advances cs ms s t) {q : RobotNo} (slot : (s.robot q).slot = .arming) : (t.robot q).slot = .arming :=
  (h.slot q).elim (fun e => e.trans slot) id

theorem needs (h : Advances cs ms s t) (q : Member) : t.needs q = s.needs q := by
  rw [State.needs, State.needs, h.judged.static]

theorem names (h : Advances cs ms s t) (z : ZoneId) (r : RobotNo) : (t.zone z).names r = (s.zone z).names r := by
  simp [Zone.names, h.judged.members z]

/-- A change that leaves the zones, the lines and every slot state. -/
theorem still (judged : Judged s t) (slot : ∀ q, (t.robot q).slot = (s.robot q).slot) (zones : t.zones = s.zones)
    (lines : t.lines = s.lines) : Advances cs [] s t where
  judged := judged
  slot q := .inl (slot q)
  moving z q h _ := by
    have zone := zone_congr zones z
    rw [zone]; exact h
  blocked z h := by
    have zone := zone_congr zones z
    rw [zone]; exact h
  holder z := .inl (congrArg Zone.holder (zone_congr zones z))
  listed l r h := by
    have line := line_congr lines l
    rw [line]; exact h
  admitted q hq := absurd hq List.not_mem_nil

theorem refl (s : State) : Advances [] [] s s := still (.refl s) (fun _ => rfl) rfl rfl

theorem trans (h : Advances cs ms s t) (k : Advances ds ns t u) : Advances (cs ++ ds) (ms ++ ns) s u where
  judged := h.judged.trans k.judged
  slot q := by
    rcases k.slot q with e | e
    · rw [e]; exact h.slot q
    · exact .inr e
  moving z q held wave := k.moving z q (h.moving z q held wave) (h.inWave wave)
  blocked z held := k.blocked z (h.blocked z held)
  holder z := by
    have before : (t.zone z).holder = (s.zone z).holder ∨
        ((t.zone z).holder = .blocked ∨ ∃ q, (t.zone z).holder = .moving q) ∧
          ((∃ q ∈ ms ++ ns, z ∈ s.needs q) ∨
            ∃ c ∈ cs ++ ds, (s.robot c.record.robot).slot = .uncertain ∧ (s.zone z).names c.record.robot = true) :=
      (h.holder z).imp_right fun ⟨held, cause⟩ => ⟨held, cause.imp
        (fun ⟨q, hq, hz⟩ => ⟨q, List.mem_append_left _ hq, hz⟩) fun ⟨c, hc, x⟩ => ⟨c, List.mem_append_left _ hc, x⟩⟩
    rcases k.holder z with e | ⟨held, cause⟩
    · rw [e]; exact before
    · refine .inr ⟨held, ?_⟩
      rcases cause with ⟨q, hq, hz⟩ | ⟨c, hc, uncertain, named⟩
      · exact .inl ⟨q, List.mem_append_right _ hq, h.needs q ▸ hz⟩
      · refine .inr ⟨c, List.mem_append_right _ hc, ?_, h.names z _ ▸ named⟩
        rcases h.slot c.record.robot with e | e
        · exact e ▸ uncertain
        · rw [e] at uncertain; cases uncertain
  listed l r x := k.listed l r (h.listed l r x)
  admitted q hq := by
    rcases List.mem_append.1 hq with hq | hq
    · obtain ⟨late, slot, held⟩ := h.admitted q hq
      exact ⟨late, k.arming slot, fun z hz => k.moving z _ (held z hz) (by rw [slot]; rfl)⟩
    · obtain ⟨late, slot, held⟩ := k.admitted q hq
      exact ⟨late, slot, fun z hz => held z (by rwa [h.needs])⟩

theorem setLast (r : RobotNo) (o : Ending) (why : Reason) : Advances cs [] s (s.setLast r o why) :=
  still (.setLast _ _ _) (fun _ => setLast_slot ..) rfl rfl

/-- A zone that a robot may not take is still not free for it. -/
theorem not_free (h : Advances cs ms s t) {z : ZoneId} {r : RobotNo} (free : (s.zone z).holder ≠ .free)
    (parked : (s.zone z).holder ≠ .parked r) : (t.zone z).holder ≠ .free ∧ (t.zone z).holder ≠ .parked r := by
  rcases h.holder z with e | ⟨e | ⟨q, e⟩, -⟩ <;> rw [e]
  · exact ⟨free, parked⟩
  · exact ⟨nofun, nofun⟩
  · exact ⟨nofun, nofun⟩

/-- A zone BLOCKED or held by a move stays so. -/
theorem held (h : Advances cs ms s t) {z : ZoneId} (held : (s.zone z).holder = .blocked ∨
    ∃ q, (s.zone z).holder = .moving q ∧ (s.robot q).slot.inWave = true) : (t.zone z).holder = .blocked ∨
      ∃ q, (t.zone z).holder = .moving q ∧ (t.robot q).slot.inWave = true :=
  held.imp (h.blocked z) fun ⟨q, hq, wave⟩ => ⟨q, h.moving z q hq wave, h.inWave wave⟩

end Advances

variable {s : State} {run : CommitRun} {c : Candidate} {p : Plan}

/-- An admission advances a commit by its member (R72). -/
theorem admitCandidate_advances (judged : s.judgeCandidate c.record = .admitted p)
    (arming : ∀ q ∈ run.members, (s.robot q.robot).slot = .arming) :
    Advances [c] [newMember s c.record p] s (admitCandidate s run c.record p).1 := by
  obtain ⟨plannable, planned, takeable⟩ := admitted_passed judged
  have first (uncertain : (s.robot c.record.robot).slot = .uncertain) : ∀ q ∈ run.members, q.robot ≠ c.record.robot := by
    intro q hq same
    have := arming q hq
    rw [same, uncertain] at this
    cases this
  have holder := admitCandidate_holder run p plannable planned first
  have unneeded {z : ZoneId} (held : (s.zone z).holder = .blocked ∨ ∃ q, (s.zone z).holder = .moving q) :
      z ∉ neededZones (s.robot c.record.robot).static.links c.record.what.kind p := fun needed => by
    rcases takeable z needed with e | e <;> rw [e] at held <;> simp at held
  have slot (q : RobotNo) : ((admitCandidate s run c.record p).1.robot q).slot =
      if c.record.robot = q then .arming else (s.robot q).slot := Examining.admitCandidate_slot ..
  refine ⟨.admitCandidate _ _ _, fun q => ?_, fun z q held wave => ?_, fun z held => ?_, fun z => ?_, fun l r x => ?_,
    fun q hq => ?_⟩
  · rw [slot]
    split
    · exact .inr rfl
    · exact .inl rfl
  · rw [holder]
    have kept : (s.underWay c.record p).keepsHolder (s.zone z) = true := by
      refine (keepsHolder_iff _ _).2 ⟨q, held, ?_⟩
      rw [underWay_robot]
      split
      · rfl
      · exact wave
    split
    · rw [if_neg fun h => absurd (kept.symm.trans h.2) (by decide)]
      exact held
    · rw [if_neg (unneeded (.inr ⟨q, held⟩))]
      exact held
  · rw [holder]
    split
    · split
      · rfl
      · exact held
    · rw [if_neg (unneeded (.inl held))]
      exact held
  · rw [holder]
    split
    · rename_i uncertain
      split
      · rename_i named
        exact .inr ⟨.inl rfl, .inr ⟨c, List.mem_singleton_self _, uncertain, named.1⟩⟩
      · exact .inl rfl
    · split
      · rename_i needed
        exact .inr ⟨.inr ⟨_, rfl⟩, .inl ⟨_, List.mem_singleton_self _, needed⟩⟩
      · exact .inl rfl
  · rw [admitCandidate_line]
    split
    · split
      · exact x
      · exact delivers_offer x _
    · exact x
  · rw [List.mem_singleton.1 hq]
    refine ⟨rfl, (slot _).trans (if_pos rfl), fun z (needed : z ∈ neededZones _ c.record.what.kind p) => ?_⟩
    rw [holder]
    split
    · rename_i uncertain
      obtain ⟨-, -, none⟩ := plan_of_uncertain plannable planned uncertain
      rw [none] at needed
      cases needed
    · exact if_pos needed

/-- A completed zero move leaves the slot states, the zones and the lines (R36). -/
theorem nullCandidate_still (s : State) (run : CommitRun) (m : MoveRecord) : let t := (nullCandidate s run m).1
    (∀ q, (t.robot q).slot = (s.robot q).slot) ∧ t.zones = s.zones ∧ t.lines = s.lines := by
  unfold nullCandidate
  dsimp only
  split
  · refine ⟨fun q => (setLast_slot ..).trans ?_, rfl, rfl⟩
    rw [robot_modRobot]
    split <;> rfl
  · exact ⟨fun _ => setLast_slot .., rfl, rfl⟩

/-- A deferral, or a drop in its stead, leaves the members, the slot states, the zones and the lines (R66). -/
theorem deferCandidate_still (s : State) (run : CommitRun) (c : Candidate) : let t := (deferCandidate s run c).1
    (deferCandidate s run c).2.members = run.members ∧ (∀ q, (t.robot q).slot = (s.robot q).slot) ∧ t.zones = s.zones ∧
      t.lines = s.lines := by
  unfold deferCandidate dropCandidate
  dsimp only
  split
  · exact ⟨rfl, fun _ => setLast_slot .., rfl, rfl⟩
  · split <;> exact ⟨rfl, fun _ => setLast_slot .., rfl, rfl⟩

/-- One candidate examined. -/
theorem examine_advances (a : State × CommitRun) (c : Candidate)
    (arming : ∀ q ∈ a.2.members, (a.1.robot q.robot).slot = .arming) :
    ∃ ms, (examine a c).2.members = a.2.members ++ ms ∧ Advances [c] ms a.1 (examine a c).1 := by
  unfold examine
  dsimp only
  split
  · exact ⟨[], (List.append_nil _).symm, .setLast _ _ _⟩
  · obtain ⟨slot, zones, lines⟩ := nullCandidate_still a.1 a.2 c.record
    exact ⟨[], (List.append_nil _).symm, .still (.nullCandidate _ _) slot zones lines⟩
  · obtain ⟨members, slot, zones, lines⟩ := deferCandidate_still a.1 a.2 c
    exact ⟨[], members.trans (List.append_nil _).symm, .still (.deferCandidate _ _) slot zones lines⟩
  · rename_i judged
    exact ⟨_, admitCandidate_snd .., admitCandidate_advances judged arming⟩

/-- Candidates examined in turn: what they change of the part, how they are disposed of, and what they keep. -/
theorem examined_advances (cs : List Candidate) (a : State × CommitRun)
    (arming : ∀ q ∈ a.2.members, (a.1.robot q.robot).slot = .arming) :
    ∃ ms, (cs.foldl examine a).2.members = a.2.members ++ ms ∧ Advances cs ms a.1 (cs.foldl examine a).1 := by
  induction cs generalizing a with
  | nil => exact ⟨[], (List.append_nil _).symm, .refl _⟩
  | cons c cs ih =>
    obtain ⟨ms, members, h⟩ := examine_advances a c arming
    obtain ⟨ns, more, k⟩ := ih (examine a c) fun q hq => by
      rw [members] at hq
      exact (List.mem_append.1 hq).elim (fun old => h.arming (arming q old)) fun new => (h.admitted q new).2.1
    exact ⟨ms ++ ns, by rw [List.foldl_cons, more, members, List.append_assoc], h.trans k⟩

end Sys2Proof.Machine
end

section
/-!
O28: the answer of a COMMIT, and what it leaves.
-/

namespace Sys2Proof.Machine

/-! ### The candidates of a COMMIT -/

/-- A candidate by its record and the deferral count it has reached. -/
def candidateOf (x : MoveRecord × Nat) : Candidate := ⟨x.1, x.2⟩

variable (s : State)

theorem requestCandidates_order : requestCandidates s = (commitOrder s).map candidateOf := by
  simp [requestCandidates, deferredCandidates, openCandidates, commitOrder, List.filter_map, Function.comp_def,
    State.hasPriority, candidateOf]

theorem commitOrder_perm : (commitOrder s).Perm
    ((s.deferred.map fun d => (d.record, d.count)) ++ s.openWave.map fun m => (m, 0)) := by
  have split (l : List (MoveRecord × Nat)) := List.filter_append_perm (fun c => (s.robot c.1.robot).static.priority) l
  refine List.Perm.trans ?_ ((split _).append (split _))
  simp only [commitOrder, List.append_assoc]
  refine List.Perm.append_left _ ?_
  simp only [← List.append_assoc]
  exact List.Perm.append_right _ List.perm_append_comm

theorem commitOrder_length : (commitOrder s).length = s.openWave.length + s.deferred.length := by
  rw [(commitOrder_perm s).length_eq, List.length_append, List.length_map, List.length_map, Nat.add_comm]

/-- The candidates are of robots with a record in the open wave or the deferred list. -/
theorem commitOrder_robot {s : State} {x : MoveRecord × Nat} (h : x ∈ commitOrder s) :
    s.inOpen x.1.robot = true ∨ s.inDeferred x.1.robot = true := by
  simp only [(commitOrder_perm s).mem_iff, List.mem_append, List.mem_map] at h
  rcases h with ⟨d, hd, rfl⟩ | ⟨m, hm, rfl⟩
  · exact .inr (List.any_eq_true.2 ⟨d, hd, by simp⟩)
  · exact .inl (List.any_eq_true.2 ⟨m, hm, by simp⟩)

/-! ### The run of a COMMIT -/

/-- A commit before its first candidate: both lists are emptied, nothing is admitted or counted. -/
def commitStart (s : State) : State × CommitRun :=
  ({ s with openWave := [], deferred := [] }, { members := [], counts := ⟨0, 0, 0, 0⟩ })

/-- A COMMIT whose candidates have been examined, before it creates its wave. -/
def commitRun (s : State) : State × CommitRun := (requestCandidates s).foldl examine (commitStart s)

theorem commitRequested_eq (lead chainCount chainLead : Byte) : commitRequested s lead chainCount chainLead =
    (createWave (commitRun s).1 ⟨.request, lead, chainCount, chainLead⟩ (commitRun s).2, (commitRun s).2) := rfl

/-- Candidates examined in turn from the start of a commit: the change of the part, their disposal, and what they keep. -/
theorem examined_from_start (cs : List Candidate) : let b := cs.foldl examine (commitStart s)
    Committed (cs.map fun c => c.record.robot) (commitStart s).1 b.1 ∧
      Disposal (commitStart s) b cs b.1.deferred b.2.members ∧ Advances cs b.2.members (commitStart s).1 b.1 := by
  obtain ⟨committed, ds, ms, disposal⟩ := examined_commits cs (commitStart s)
  obtain ⟨ns, members, advances⟩ := examined_advances cs (commitStart s) (fun _ h => absurd h List.not_mem_nil)
  have deferred : _ = ds := disposal.deferred
  have first : _ = ms := disposal.members
  have second : _ = ns := members
  dsimp only
  rw [deferred, first]
  exact ⟨committed, disposal, by rw [← first, second]; exact advances⟩

theorem createWave_none {t : State} {o : CommitOrder} {run : CommitRun} (none : run.members = []) :
    createWave t o run = t := if_pos none

theorem createWave_some {t : State} {o : CommitOrder} {run : CommitRun} (filled : run.members ≠ []) :
    createWave t o run = { t with
      waveCounter := nextWaveNumber t.waveCounter
      wave := some { number := nextWaveNumber t.waveCounter, state := .arming, origin := o.origin,
                     startMark := t.epoch.counter + o.lead.setWidth 32, lead := o.lead, chainRemaining := o.chainCount,
                     chainLead := o.chainLead, counts := run.counts, members := run.members } } := if_neg filled

/-- The creation of the wave changes the wave record and the counter alone. -/
theorem createWave_eq (t : State) (o : CommitOrder) (run : CommitRun) : createWave t o run =
    { t with wave := (createWave t o run).wave, waveCounter := (createWave t o run).waveCounter } := by
  by_cases none : run.members = []
  · rw [createWave_none none]
  · rw [createWave_some none]

section
variable (t : State) (o : CommitOrder) (run : CommitRun)

theorem createWave_robot (r : RobotNo) : (createWave t o run).robot r = t.robot r := by rw [createWave_eq]; rfl
theorem createWave_zones : (createWave t o run).zones = t.zones := by rw [createWave_eq]
theorem createWave_lines : (createWave t o run).lines = t.lines := by rw [createWave_eq]
theorem createWave_openWave : (createWave t o run).openWave = t.openWave := by rw [createWave_eq]
theorem createWave_deferred : (createWave t o run).deferred = t.deferred := by rw [createWave_eq]
theorem createWave_events : (createWave t o run).events = t.events := by rw [createWave_eq]

end

/-- The members of the wave ARMING after a commit are those that it admitted. -/
theorem createWave_arming {t : State} (o : CommitOrder) (run : CommitRun) (idle : ∀ w, t.wave = some w → w.state = .done) :
    (createWave t o run).arming = run.members := by
  by_cases none : run.members = []
  · rw [createWave_none none, none, State.arming]
    split
    · rfl
    · rename_i w hw
      rw [idle w hw]
      rfl
  · rw [createWave_some none]
    rfl

/-! ### The drops in the stead of a deferral -/

/-- Candidate `c` has been dropped in the stead of a deferral. -/
def deferDropped (b : State × CommitRun) (c : Candidate) : Bool :=
  decide (∀ q ∈ b.2.members, q.robot ≠ c.record.robot) &&
    decide ((b.1.robot c.record.robot).lastOutcome = .dropped) &&
    (decide ((b.1.robot c.record.robot).lastReason = .expired) || decide ((b.1.robot c.record.robot).lastReason = .overflow))

theorem setLast_robot (t : State) (r : RobotNo) (o : Ending) (why : Reason) :
    (t.setLast r o why).robot r = { t.robot r with lastOutcome := o, lastReason := why } :=
  (robot_modRobot ..).trans (if_pos rfl)

theorem setLast_last (t : State) (r : RobotNo) (o : Ending) (why : Reason) :
    ((t.setLast r o why).robot r).lastOutcome = o ∧ ((t.setLast r o why).robot r).lastReason = why := by
  rw [setLast_robot]
  exact ⟨rfl, rfl⟩

/-- How many DEFER_DROPs a candidate raises. -/
def deferDrops (b : State × CommitRun) (c : Candidate) : Nat := if deferDropped b c then 1 else 0

theorem deferDrops_of_outcome {b : State × CommitRun} {c : Candidate}
    (other : (b.1.robot c.record.robot).lastOutcome ≠ .dropped) : deferDrops b c = 0 := by
  simp [deferDrops, deferDropped, other]

theorem deferDrops_drop {t : State} {run : CommitRun} {c : Candidate} {why : Reason}
    (apart : ∀ q ∈ run.members, q.robot ≠ c.record.robot) :
    deferDrops (dropCandidate t run c.record why) c = if why = .expired ∨ why = .overflow then 1 else 0 := by
  obtain ⟨outcome, reason⟩ := setLast_last t c.record.robot .dropped why
  have members : decide (∀ q ∈ (dropCandidate t run c.record why).2.members, q.robot ≠ c.record.robot) = true :=
    decide_eq_true apart
  rw [deferDrops, deferDropped, members]
  simp [dropCandidate, outcome, reason]

variable {s}

/-- A candidate raises DEFER_DROP once when it is dropped in the stead of a deferral, and never otherwise (R66, R71). -/
theorem examine_deferDrops (a : State × CommitRun) (c : Candidate) (apart : ∀ q ∈ a.2.members, q.robot ≠ c.record.robot) :
    ((examine a c).1.events.get .deferDrop).count.toNat =
      min 255 ((a.1.events.get .deferDrop).count.toNat + deferDrops (examine a c) c) := by
  unfold examine
  dsimp only
  split
  · rename_i why judged
    obtain ⟨expired, overflow⟩ := drop_reason judged
    rw [deferDrops_drop apart, if_neg (by tauto)]
    exact count_kept rfl
  · rw [deferDrops_of_outcome]
    · exact count_kept (by unfold nullCandidate; dsimp only; split <;> rfl)
    · unfold nullCandidate
      dsimp only
      rw [(setLast_last ..).1]
      decide
  · unfold deferCandidate
    dsimp only
    split
    · rw [deferDrops_drop apart, if_pos (.inl rfl)]
      exact count_raised ..
    · split
      · rw [deferDrops_drop apart, if_pos (.inr rfl)]
        exact count_raised ..
      · rw [deferDrops_of_outcome]
        · exact count_kept rfl
        · rw [(setLast_last ..).1]
          decide
  · rename_i p _
    have admitted : deferDrops (admitCandidate a.1 a.2 c.record p) c = 0 := by
      have member : newMember a.1 c.record p ∈ (admitCandidate a.1 a.2 c.record p).2.members := by
        rw [admitCandidate_snd]
        exact List.mem_append_right _ (List.mem_singleton_self _)
      have found : ¬∀ q ∈ (admitCandidate a.1 a.2 c.record p).2.members, q.robot ≠ c.record.robot :=
        fun none => none _ member rfl
      simp [deferDrops, deferDropped, found]
    rw [admitted]
    exact count_kept (admitCandidate_events _ _ (by decide))

/-- A candidate's disposal is left by candidates of other robots. -/
theorem deferDropped_kept {a : State × CommitRun} {c : Candidate} {cs : List Candidate}
    (other : c.record.robot ∉ cs.map fun c => c.record.robot) :
    deferDropped (cs.foldl examine a) c = deferDropped a c := by
  obtain ⟨committed, ds, ms, disposal⟩ := examined_commits cs a
  have members : (∀ q ∈ (cs.foldl examine a).2.members, q.robot ≠ c.record.robot) ↔
      ∀ q ∈ a.2.members, q.robot ≠ c.record.robot := by
    rw [disposal.members]
    refine ⟨fun h q hq => h q (List.mem_append_left _ hq), fun h q hq => (List.mem_append.1 hq).elim (h q) fun new => ?_⟩
    rintro same
    exact other (same ▸ disposal.robots.subset (List.mem_map_of_mem new))
  rw [deferDropped, deferDropped, committed.robots _ other, decide_eq_decide.2 members]

/-- DEFER_DROP is raised once for each candidate dropped in the stead of a deferral (R66). -/
theorem examined_deferDrops (cs : List Candidate) (a : State × CommitRun)
    (distinct : (cs.map fun c => c.record.robot).Nodup)
    (apart : ∀ q ∈ a.2.members, q.robot ∉ cs.map fun c => c.record.robot) :
    ((cs.foldl examine a).1.events.get .deferDrop).count.toNat = min 255 ((a.1.events.get .deferDrop).count.toNat +
      (cs.filter (deferDropped (cs.foldl examine a))).length) := by
  induction cs generalizing a with
  | nil => exact count_kept rfl
  | cons c cs ih =>
    rw [List.map_cons] at distinct apart
    obtain ⟨other, distinct⟩ := List.nodup_cons.1 distinct
    obtain ⟨-, ds, ms, disposal⟩ := examine_commits a c
    have once := examine_deferDrops a c fun q hq same => apart q hq (same ▸ List.mem_cons_self)
    have rest := ih (examine a c) distinct fun q hq => by
      rw [disposal.members] at hq
      rcases List.mem_append.1 hq with old | new
      · exact fun h => apart q old (List.mem_cons_of_mem _ h)
      · have own : q.robot = c.record.robot := by
          simpa using disposal.robots.subset (List.mem_map_of_mem new)
        rwa [own]
    have number : ((c :: cs).filter (deferDropped (cs.foldl examine (examine a c)))).length =
        deferDrops (examine a c) c + (cs.filter (deferDropped (cs.foldl examine (examine a c)))).length := by
      rw [List.filter_cons, deferDropped_kept other, deferDrops]
      split
      · rw [List.length_cons, Nat.add_comm]
      · rw [Nat.zero_add]
    rw [List.foldl_cons, rest, number, once]
    omega

/-! ### The answer of a COMMIT -/

variable {lead chainCount chainLead : Byte}

theorem exec_commit (ready : Ready s) {t : State} {status : Status} {payload : List Byte}
    (served : commitRequest s.hunting lead chainCount chainLead = ⟨t.hunting, status, payload⟩) :
    exec (.commit 0xFFFF lead chainCount chainLead) s = .next (t.answer 0xFFFF 19 status payload) :=
  exec_answer (f := commitFrame 0xFFFF lead chainCount chainLead) rfl ready (by simp [commitFrame, Config.payloadMax])
    (by rw [serve, parse_commit]; exact served)

theorem waveIdle_iff : s.waveIdle = true ↔ ∀ w, s.wave = some w → w.state = .done := by
  unfold State.waveIdle
  split
  · rename_i none; simp [none]
  · rename_i w hw; simp [hw]

/-- The state that a COMMIT carried out leaves. -/
def committed (s : State) (lead chainCount chainLead : Byte) : State := (commitRequested s lead chainCount chainLead).1

theorem commitRequest_carried (fields : ¬(lead = 0 ∨ 7 < chainCount.toNat ∨ chainLead = 0))
    (idle : ∀ w, s.wave = some w → w.state = .done) (filled : ¬(s.openWave = [] ∧ s.deferred = [])) :
    commitRequest s lead chainCount chainLead = ⟨committed s lead chainCount chainLead, .ok,
      commitBytes (commitRequested s lead chainCount chainLead)⟩ := by
  rw [commitRequest, if_neg fields, if_neg (by rw [waveIdle_iff.2 idle]; decide), if_neg filled]
  rfl

/-- A COMMIT that is not refused is carried out (R68). -/
theorem exec_committed (ready : Ready s) (fields : ¬(lead = 0 ∨ 7 < chainCount.toNat ∨ chainLead = 0))
    (idle : ∀ w, s.wave = some w → w.state = .done) (filled : ¬(s.openWave = [] ∧ s.deferred = [])) :
    exec (.commit 0xFFFF lead chainCount chainLead) s = .next ((committed s.hunting lead chainCount chainLead).answer
      0xFFFF 19 .ok (commitBytes (commitRequested s.hunting lead chainCount chainLead))) := by
  have trunk : (committed s.hunting lead chainCount chainLead).trunk = s.hunting.trunk :=
    (Judged.commitCandidates (s := { s.hunting with openWave := [], deferred := [] }) _ _).trunk
  refine exec_commit ready ?_
  rw [hunting_of_trunk trunk]
  exact commitRequest_carried (s := s.hunting) fields idle filled

/-- The reply of a COMMIT carried out: the counts, then the wave's number and start mark, or zeros (R73). -/
theorem commitBytes_eq (s : State) : commitBytes (commitRequested s lead chainCount chainLead) =
    le16 (halfOf (commitRun s).2.counts.admitted) ++ le16 (halfOf (commitRun s).2.counts.deferred) ++
      le16 (halfOf (commitRun s).2.counts.dropped) ++ le16 (halfOf (commitRun s).2.counts.null) ++
      le16 (if (commitRun s).2.members = [] then 0 else nextWaveNumber (commitRun s).1.waveCounter) ++
      le32 (if (commitRun s).2.members = [] then 0 else (commitRun s).1.epoch.counter + lead.setWidth 32) := by
  rw [commitRequested_eq, commitBytes, List.append_assoc _ (le16 _) (le32 _)]
  dsimp only
  by_cases none : (commitRun s).2.members = []
  · simp only [if_pos none]
    rfl
  · rw [createWave_some none]
    simp only [if_neg none]

/-! ### What the run of a COMMIT leaves -/

section
variable (s : State)

/-- The run of a COMMIT leaves the wave record, its counter and the timebase, and its open wave is empty. -/
theorem commitRun_kept : (commitRun s).1.openWave = [] ∧ (commitRun s).1.wave = s.wave ∧
    (commitRun s).1.waveCounter = s.waveCounter ∧ (commitRun s).1.epoch = s.epoch := by
  have frame := (examined_from_start s (requestCandidates s)).1.frame
  rw [← commitRun] at frame
  rw [frame]
  exact ⟨rfl, rfl, rfl, rfl⟩

/-- The four counts of a COMMIT (R71). -/
theorem commitRun_counts : let k := (commitRun s).2.counts
    k.admitted = (commitRun s).2.members.length ∧ (commitRun s).1.deferred.length = k.deferred ∧
      k.admitted + k.deferred + k.dropped + k.null = s.openWave.length + s.deferred.length := by
  obtain ⟨-, disposal, -⟩ := examined_from_start s (requestCandidates s)
  have total := disposal.total
  rw [requestCandidates_order, List.length_map, commitOrder_length, ← requestCandidates_order] at total
  exact ⟨disposal.admitted.trans (Nat.zero_add _), (disposal.counted.trans (Nat.zero_add _)).symm,
    total.trans (Nat.zero_add _)⟩

/-- The deferred list after a COMMIT: of at most 64 candidates in their order, each deferred once more and at most seven times
(R66, R69). -/
theorem commitRun_deferred : DeferredOk (commitRun s).1.deferred ∧
    ((commitRun s).1.deferred.map fun d => (d.record, d.count)).Sublist ((commitOrder s).map fun c => (c.1, c.2 + 1)) := by
  obtain ⟨-, disposal, advances⟩ := examined_from_start s (requestCandidates s)
  have inOrder := disposal.fromList
  rw [← commitRun, requestCandidates_order, List.map_map] at inOrder
  exact ⟨advances.judged.deferred deferredOk_nil, inOrder⟩

/-- The members that a COMMIT admits: of candidates in their order, each LISTED and undecided, its robot ARMING and the zones that
it needs held (R69, R72, R74). -/
theorem commitRun_members :
    ((commitRun s).2.members.map Member.robot).Sublist ((commitOrder s).map fun c => c.1.robot) ∧
    ∀ m ∈ (commitRun s).2.members, m.delivery = .listed ∧ m.outcome = .none ∧ m.late = false ∧
      ((commitRun s).1.robot m.robot).slot = .arming ∧ ∀ z ∈ s.needs m, ((commitRun s).1.zone z).holder = .moving m.robot := by
  obtain ⟨-, disposal, advances⟩ := examined_from_start s (requestCandidates s)
  have inOrder := disposal.robots
  rw [← commitRun, requestCandidates_order, List.map_map] at inOrder
  refine ⟨inOrder, fun m hm => ?_⟩
  obtain ⟨delivery, outcome, slot⟩ := disposal.fresh m hm
  obtain ⟨late, -, zones⟩ := advances.admitted m hm
  exact ⟨delivery, outcome, late, slot, zones⟩

/-- A robot without a record in either list is left as it was. -/
theorem commitRun_robot {r : RobotNo} (noOpen : s.inOpen r = false) (noDeferred : s.inDeferred r = false) :
    (commitRun s).1.robot r = s.robot r := by
  refine (examined_from_start s (requestCandidates s)).1.robots r fun listed => ?_
  rw [requestCandidates_order, List.map_map] at listed
  obtain ⟨x, hx, rfl⟩ := List.mem_map.1 listed
  rcases commitOrder_robot hx with h | h
  · exact absurd (h.symm.trans noOpen) (by decide)
  · exact absurd (h.symm.trans noDeferred) (by decide)

/-- The state that a COMMIT carried out leaves: its run, with the wave that it creates (R73). -/
theorem committed_eq (lead chainCount chainLead : Byte) : committed s lead chainCount chainLead =
    createWave (commitRun s).1 ⟨.request, lead, chainCount, chainLead⟩ (commitRun s).2 := rfl

theorem committed_arming (lead chainCount chainLead : Byte) (idle : ∀ w, s.wave = some w → w.state = .done) :
    (committed s lead chainCount chainLead).arming = (commitRun s).2.members := by
  obtain ⟨-, wave, -, -⟩ := commitRun_kept s
  rw [committed_eq]
  exact createWave_arming _ _ (by rw [wave]; exact idle)

theorem committed_wave (lead chainCount chainLead : Byte) (admitted : (commitRun s).2.members ≠ []) :
    (committed s lead chainCount chainLead).waveCounter = nextWaveNumber s.waveCounter ∧
      (committed s lead chainCount chainLead).wave = some
        { number := nextWaveNumber s.waveCounter, state := .arming, origin := .request,
          startMark := s.epoch.counter + lead.setWidth 32, lead := lead, chainRemaining := chainCount, chainLead := chainLead,
          counts := (commitRun s).2.counts, members := (commitRun s).2.members } := by
  obtain ⟨-, -, counter, epoch⟩ := commitRun_kept s
  rw [committed_eq, createWave_some admitted, ← counter, ← epoch]
  exact ⟨rfl, rfl⟩

theorem commitRun_deferDrops (distinct : ((commitOrder s).map fun c => c.1.robot).Nodup) :
    ((commitRun s).1.events.get .deferDrop).count.toNat = min 255 ((s.events.get .deferDrop).count.toNat +
      ((commitOrder s).filter fun x => deferDropped (commitRun s) (candidateOf x)).length) := by
  have count := examined_deferDrops (requestCandidates s) (commitStart s)
    (by rw [requestCandidates_order, List.map_map]; exact distinct) fun q hq => absurd hq List.not_mem_nil
  rw [← commitRun, requestCandidates_order, List.filter_map, List.length_map] at count
  exact count

end

/-- Settles O28: the three refusals, then the run of a COMMIT and the wave that it creates. -/
theorem commitOutcome : Obligations.CommitOutcome := by
  intro s lead chainCount chainLead ready
  dsimp only
  refine ⟨fun bad => ?_, fun fields active => ?_, fun fields idle noOpen noDeferred => ?_, fun fields idle filled => ?_⟩
  · exact exec_commit (t := s) ready (if_pos bad)
  · refine exec_commit (t := s) ready ((if_neg fields).trans (if_pos ?_))
    rw [← Bool.not_eq_true]
    exact mt (waveIdle_iff (s := s.hunting)).1 active
  · refine exec_commit (t := s) ready ((if_neg fields).trans ((if_neg ?_).trans (if_pos ⟨noOpen, noDeferred⟩)))
    rw [(waveIdle_iff (s := s.hunting)).2 idle]
    decide
  have answered := exec_committed ready fields idle filled
  rw [commitBytes_eq] at answered
  obtain ⟨openWave, wave, counter, epoch⟩ := commitRun_kept s.hunting
  obtain ⟨admitted, deferred, total⟩ := commitRun_counts s.hunting
  obtain ⟨⟨capacity, reached⟩, deferredOrder⟩ := commitRun_deferred s.hunting
  obtain ⟨memberOrder, members⟩ := commitRun_members s.hunting
  have arming := committed_arming s.hunting lead chainCount chainLead idle
  have robot : ∀ r, (committed s.hunting lead chainCount chainLead).robot r = (commitRun s.hunting).1.robot r :=
    fun _ => createWave_robot ..
  have zone : ∀ z, (committed s.hunting lead chainCount chainLead).zone z = (commitRun s.hunting).1.zone z :=
    zone_congr (createWave_zones ..)
  have list : (committed s.hunting lead chainCount chainLead).deferred = (commitRun s.hunting).1.deferred :=
    createWave_deferred ..
  have none : (commitRun s.hunting).2.counts.admitted = 0 ↔ (commitRun s.hunting).2.members = [] := by
    rw [admitted, List.length_eq_zero_iff]
  refine ⟨_, _, _, _, answered, total, (createWave_openWave ..).trans openWave, by rw [list, deferred],
    deferred ▸ capacity, fun d hd => (reached d (list ▸ hd)).2, list ▸ deferredOrder,
    fun r noOpen noDeferred => (robot r).trans (commitRun_robot s.hunting noOpen noDeferred), fun zero => ?_,
    fun admits => ?_, fun distinct => ?_⟩
  · have empty := none.1 zero
    have same : committed s.hunting lead chainCount chainLead = (commitRun s.hunting).1 := createWave_none empty
    rw [same, if_pos empty, if_pos empty]
    exact ⟨wave, counter, rfl, rfl⟩
  · have filled := mt none.2 admits
    obtain ⟨number, created⟩ := committed_wave s.hunting lead chainCount chainLead filled
    rw [if_neg filled, if_neg filled, counter, epoch]
    refine ⟨rfl, rfl, number, _, admitted.symm, memberOrder, fun m hm => ?_, created⟩
    obtain ⟨delivery, outcome, late, slot, zones⟩ := members m hm
    exact ⟨delivery, outcome, late, (robot m.robot).symm ▸ slot, fun z hz => by rw [zone]; exact zones z hz⟩
  · rw [arming]
    simp only [robot]
    rw [show (committed s.hunting lead chainCount chainLead).events = _ from createWave_events ..]
    exact commitRun_deferDrops s.hunting distinct

end Sys2Proof.Machine
end

section
/-!
O29: a candidate in its place of the order of a COMMIT.
-/

namespace Sys2Proof.Machine

/-- A commit when the candidates `before` have been examined. -/
def atTurn (s : State) (before : List (MoveRecord × Nat)) : State × CommitRun :=
  (before.map candidateOf).foldl examine (commitStart s)

/-- A commit when its candidate `x` has been examined as well. -/
def afterTurn (s : State) (before : List (MoveRecord × Nat)) (x : MoveRecord × Nat) : State × CommitRun :=
  examine (atTurn s before) (candidateOf x)

/-- Candidate `x` of a COMMIT stands between `before` and `after`, one candidate a robot (R63, R69). -/
structure InTurn (s : State) (before : List (MoveRecord × Nat)) (x : MoveRecord × Nat) (after : List (MoveRecord × Nat)) :
    Prop where
  order : commitOrder s = before ++ x :: after
  distinct : ((commitOrder s).map fun c => c.1.robot).Nodup

/-- Robot `r` has a candidate among `cs`. -/
def Among (cs : List (MoveRecord × Nat)) (r : RobotNo) : Prop := ∃ c ∈ cs, c.1.robot = r

theorem among_iff {cs : List (MoveRecord × Nat)} {r : RobotNo} :
    Among cs r ↔ r ∈ (cs.map candidateOf).map fun c => c.record.robot := by
  simp [Among, candidateOf]

/-- The members and the deferred entries that candidates come to are of their robots. -/
theorem Disposal.among {a b : State × CommitRun} {cs : List (MoveRecord × Nat)} {ds : List Deferral} {ms : List Member}
    (h : Disposal a b (cs.map candidateOf) ds ms) :
    (∀ q ∈ ms, Among cs q.robot) ∧ ∀ d ∈ ds, Among cs d.record.robot := by
  refine ⟨fun q hq => among_iff.2 (h.robots.subset (List.mem_map_of_mem hq)), fun d hd => ?_⟩
  have listed := h.fromList.subset (List.mem_map_of_mem hd)
  simp only [List.mem_map] at listed
  obtain ⟨_, ⟨x, hx, rfl⟩, e⟩ := listed
  exact ⟨x, hx, congrArg (fun p : MoveRecord × Nat => p.1.robot) e⟩

/-- The candidates before a turn: what they keep, and how they are disposed of. -/
theorem atTurn_advances (s : State) (before : List (MoveRecord × Nat)) :
    Advances (before.map candidateOf) (atTurn s before).2.members (commitStart s).1 (atTurn s before).1 :=
  (examined_from_start s _).2.2

theorem atTurn_disposal (s : State) (before : List (MoveRecord × Nat)) :
    Disposal (commitStart s) (atTurn s before) (before.map candidateOf) (atTurn s before).1.deferred
      (atTurn s before).2.members := (examined_from_start s _).2.1

theorem atTurn_arming (s : State) (before : List (MoveRecord × Nat)) :
    ∀ q ∈ (atTurn s before).2.members, ((atTurn s before).1.robot q.robot).slot = .arming :=
  fun q hq => ((atTurn_advances s before).admitted q hq).2.1

theorem atTurn_state (s : State) (before : List (MoveRecord × Nat)) (l : LineNo) :
    ((atTurn s before).1.line l).state = (s.line l).state :=
  congrArg Prod.fst ((atTurn_advances s before).judged.core l)

/-- A candidate's turn adds its own member or deferred entry, if any. -/
theorem afterTurn_disposal (s : State) (before : List (MoveRecord × Nat)) (x : MoveRecord × Nat) :
    ∃ ds ms, Disposal (atTurn s before) (afterTurn s before x) ([x].map candidateOf) ds ms := (examine_commits _ _).2

namespace InTurn

variable {s : State} {before after : List (MoveRecord × Nat)} {x : MoveRecord × Nat} (h : InTurn s before x after)
include h

theorem apart : ¬Among before x.1.robot ∧ ¬Among after x.1.robot ∧ ∀ r, Among before r → ¬Among after r := by
  have distinct := h.distinct
  rw [h.order, List.map_append, List.map_cons, List.nodup_append, List.nodup_cons] at distinct
  obtain ⟨-, ⟨notAfter, -⟩, disjoint⟩ := distinct
  have listed {cs : List (MoveRecord × Nat)} {r : RobotNo} (k : Among cs r) : r ∈ cs.map fun c => c.1.robot := by
    obtain ⟨c, hc, rfl⟩ := k
    exact List.mem_map_of_mem hc
  exact ⟨fun k => disjoint _ (listed k) _ List.mem_cons_self rfl, fun k => notAfter (listed k),
    fun r k l => disjoint _ (listed k) _ (List.mem_cons_of_mem _ (listed l)) rfl⟩

theorem run : commitRun s = (after.map candidateOf).foldl examine (afterTurn s before x) := by
  rw [commitRun, requestCandidates_order, h.order, List.map_append, List.foldl_append]
  rfl

/-! ### Before the turn -/

/-- The candidates before leave the robot. -/
theorem robot_at : (atTurn s before).1.robot x.1.robot = s.robot x.1.robot :=
  (examined_from_start s _).1.robots _ fun listed => h.apart.1 (among_iff.2 listed)

theorem plan_at : planCandidate (atTurn s before).1 x.1 = planCandidate s x.1 :=
  planCandidate_congr h.robot_at (atTurn_advances s before).judged.profiles

theorem plannable_at (plannable : Plannable s x.1) : Plannable (atTurn s before).1 x.1 :=
  plannable.congr h.robot_at (atTurn_state s before)

/-! ### After the turn -/

/-- The candidates after leave the robot. -/
theorem robot_after : (commitRun s).1.robot x.1.robot = (afterTurn s before x).1.robot x.1.robot := by
  rw [h.run]
  exact (examined_commits _ _).1.robots _ fun listed => h.apart.2.1 (among_iff.2 listed)

/-- What the candidates after add. -/
theorem rest : ∃ ds ms, Disposal (afterTurn s before x) (commitRun s) (after.map candidateOf) ds ms := by
  rw [h.run]
  exact (examined_commits _ _).2

theorem rest_advances : ∃ ms, Advances (after.map candidateOf) ms (afterTurn s before x).1 (commitRun s).1 := by
  rw [h.run]
  obtain ⟨ms, members, advances⟩ := examine_advances (atTurn s before) (candidateOf x) (atTurn_arming s before)
  obtain ⟨ns, -, after⟩ := examined_advances (after.map candidateOf) (afterTurn s before x) fun q hq => by
    rw [afterTurn, members] at hq
    exact (List.mem_append.1 hq).elim (fun old => advances.arming (atTurn_arming s before q old))
      fun new => (advances.admitted q new).2.1
  exact ⟨ns, after⟩

/-- The members that a COMMIT admits of the robots before the candidate are those admitted at its turn. -/
theorem member_before {q : Member} : q ∈ (commitRun s).2.members ∧ Among before q.robot ↔ q ∈ (atTurn s before).2.members := by
  obtain ⟨notBefore, -, disjoint⟩ := h.apart
  obtain ⟨_, ms, turn⟩ := afterTurn_disposal s before x
  obtain ⟨_, ns, rest⟩ := h.rest
  rw [rest.members, turn.members, List.append_assoc, List.mem_append, List.mem_append]
  constructor
  · rintro ⟨old | own | new, among⟩
    · exact old
    · obtain ⟨c, hc, e⟩ := turn.among.1 q own
      rw [List.mem_singleton.1 hc] at e
      exact absurd (e ▸ among) notBefore
    · exact absurd (rest.among.1 q new) (disjoint _ among)
  · exact fun old => ⟨.inl old, (atTurn_disposal s before).among.1 q old⟩

/-- The deferred entries of the robots before the candidate are those deferred at its turn. -/
theorem deferred_before : (commitRun s).1.deferred.filter (fun d => decide (∃ c ∈ before, c.1.robot = d.record.robot)) =
    (atTurn s before).1.deferred := by
  obtain ⟨notBefore, -, disjoint⟩ := h.apart
  obtain ⟨ds, _, turn⟩ := afterTurn_disposal s before x
  obtain ⟨es, _, rest⟩ := h.rest
  rw [rest.deferred, turn.deferred, List.filter_append, List.filter_append, List.filter_eq_self.2 fun d hd => ?old,
    List.filter_eq_nil_iff.2 fun d hd => ?own, List.filter_eq_nil_iff.2 fun d hd => ?new, List.append_nil, List.append_nil]
  case old => exact decide_eq_true ((atTurn_disposal s before).among.2 d hd)
  case own =>
    obtain ⟨c, hc, e⟩ := turn.among.2 d hd
    rw [List.mem_singleton.1 hc] at e
    rw [decide_eq_true_eq, ← e]
    exact notBefore
  case new =>
    rw [decide_eq_true_eq]
    exact fun among => disjoint _ among (rest.among.2 d hd)

/-- A candidate that is not admitted in its turn has no member. -/
theorem no_member (members : (afterTurn s before x).2.members = (atTurn s before).2.members) :
    ∀ q ∈ (commitRun s).2.members, q.robot ≠ x.1.robot := by
  obtain ⟨notBefore, notAfter, -⟩ := h.apart
  obtain ⟨_, ns, rest⟩ := h.rest
  intro q hq same
  rw [rest.members, members] at hq
  rcases List.mem_append.1 hq with old | new
  · exact notBefore (same ▸ (atTurn_disposal s before).among.1 q old)
  · exact notAfter (same ▸ rest.among.1 q new)

/-- A candidate that is not deferred in its turn has no deferred entry. -/
theorem no_deferral (deferred : (afterTurn s before x).1.deferred = (atTurn s before).1.deferred) :
    ∀ d ∈ (commitRun s).1.deferred, d.record.robot ≠ x.1.robot := by
  obtain ⟨notBefore, notAfter, -⟩ := h.apart
  obtain ⟨es, _, rest⟩ := h.rest
  intro d hd same
  rw [rest.deferred, deferred] at hd
  rcases List.mem_append.1 hd with old | new
  · exact notBefore (same ▸ (atTurn_disposal s before).among.2 d old)
  · exact notAfter (same ▸ rest.among.2 d new)

/-! ### The zones in its turn -/

/-- A needed zone held against the candidate, or needed by a member admitted before it, is a conflict (R56). -/
theorem conflict {zs : List ZoneId} (taken : (∃ z ∈ zs, (s.zone z).holder ≠ .free ∧ (s.zone z).holder ≠ .parked x.1.robot) ∨
    ∃ q ∈ (commitRun s).2.members, Among before q.robot ∧ ∃ z ∈ zs, z ∈ s.needs q) :
    ¬(atTurn s before).1.canTake x.1.robot zs = true := by
  rw [canTake_iff]
  intro takes
  rcases taken with ⟨z, hz, free, parked⟩ | ⟨q, hq, among, z, hz, needs⟩
  · obtain ⟨free, parked⟩ := (atTurn_advances s before).not_free (z := z) (r := x.1.robot) free parked
    exact (takes z hz).elim free parked
  · have held := ((atTurn_advances s before).admitted q (h.member_before.1 ⟨hq, among⟩)).2.2 z needs
    rcases takes z hz with e | e <;> rw [held] at e <;> cases e

/-- Zones free for the candidate, of which no member admitted before it needs one and none names a robot that may have begun a
HOME from UNCERTAIN before it, are no conflict (R56). -/
theorem no_conflict {zs : List ZoneId} (free : ∀ z ∈ zs, (s.zone z).holder = .free ∨ (s.zone z).holder = .parked x.1.robot)
    (homing : ∀ z ∈ zs, ∀ c ∈ before, ¬((s.robot c.1.robot).slot = .uncertain ∧ (s.zone z).names c.1.robot = true))
    (taken : ¬∃ q ∈ (commitRun s).2.members, Among before q.robot ∧ ∃ z ∈ zs, z ∈ s.needs q) :
    (atTurn s before).1.canTake x.1.robot zs = true := by
  refine (canTake_iff _ _ _).2 fun z hz => ?_
  rcases (atTurn_advances s before).holder z with e | ⟨-, ⟨q, hq, needs⟩ | ⟨c, hc, cause⟩⟩
  · rw [e]
    exact free z hz
  · obtain ⟨member, among⟩ := h.member_before.2 hq
    exact absurd ⟨q, member, among, z, hz, needs⟩ taken
  · obtain ⟨y, hy, rfl⟩ := List.mem_map.1 hc
    exact absurd cause (homing z hz y hy)

end InTurn

end Sys2Proof.Machine
end

section
/-!
O29, continued: how the turn of a candidate ends.
-/

namespace Sys2Proof.Machine

/-! ### Each disposition -/

section
variable {a : State × CommitRun} {c : Candidate}

theorem examine_drop {why : Reason} (judged : a.1.judgeCandidate c.record = .drop why) :
    examine a c = dropCandidate a.1 a.2 c.record why := by
  unfold examine; dsimp only; rw [judged]

theorem examine_null (judged : a.1.judgeCandidate c.record = .null) : examine a c = nullCandidate a.1 a.2 c.record := by
  unfold examine; dsimp only; rw [judged]

theorem examine_defer (judged : a.1.judgeCandidate c.record = .defer) : examine a c = deferCandidate a.1 a.2 c := by
  unfold examine; dsimp only; rw [judged]

theorem examine_admitted {p : Plan} (judged : a.1.judgeCandidate c.record = .admitted p) :
    examine a c = admitCandidate a.1 a.2 c.record p := by
  unfold examine; dsimp only; rw [judged]

end

section
variable (s : State) (run : CommitRun) (c : Candidate)

theorem deferCandidate_expired (old : 8 ≤ c.count + 1) : deferCandidate s run c =
    dropCandidate (s.raise .deferDrop (halfOf c.record.robot.val)) run c.record .expired := if_pos old

theorem deferCandidate_overflow (young : c.count + 1 < 8) (full : 64 ≤ s.deferred.length) : deferCandidate s run c =
    dropCandidate (s.raise .deferDrop (halfOf c.record.robot.val)) run c.record .overflow :=
  (if_neg (Nat.not_le.2 young)).trans (if_pos full)

theorem deferCandidate_deferred (young : c.count + 1 < 8) (room : ¬64 ≤ s.deferred.length) : deferCandidate s run c =
    (State.setLast { s with deferred := s.deferred ++ [⟨c.record, c.count + 1⟩] } c.record.robot .deferred .zone,
      { run with counts := { run.counts with deferred := run.counts.deferred + 1 } }) :=
  (if_neg (Nat.not_le.2 young)).trans (if_neg room)

/-- The robot of a completed zero move: NULL, with the top of its stack gone after a RETRACE (R14, R36). -/
theorem nullCandidate_robot (s : State) (run : CommitRun) (m : MoveRecord) :
    (nullCandidate s run m).1.robot m.robot = { s.robot m.robot with
      lastOutcome := .null, lastReason := .none
      stack := if m.what.kind = .retrace then (s.robot m.robot).stack.tail else (s.robot m.robot).stack } := by
  unfold nullCandidate
  dsimp only
  rw [setLast_robot]
  by_cases retrace : m.what = .retrace
  · rw [if_pos retrace, if_pos ((kind_eq_retrace_iff _).2 retrace), robot_modRobot, if_pos rfl]
  · rw [if_neg retrace, if_neg (mt (kind_eq_retrace_iff _).1 retrace)]

theorem nullCandidate_deferred (s : State) (run : CommitRun) (m : MoveRecord) :
    (nullCandidate s run m).1.deferred = s.deferred := by
  unfold nullCandidate
  dsimp only
  split <;> rfl

end

/-- From `s` to `t` candidate `x`, in its place between `before` and `after`, ends without a member, its robot as `b`; alone, it
leaves the wave record, the zones and the lines. -/
def EndsTurn (s t : State) (before : List (MoveRecord × Nat)) (x : MoveRecord × Nat) (after : List (MoveRecord × Nat))
    (b : Robot) : Prop :=
  t.robot x.1.robot = b ∧ (∀ q ∈ t.arming, q.robot ≠ x.1.robot) ∧
    (before = [] ∧ after = [] → t.wave = s.wave ∧ t.zones = s.zones ∧ t.lines = s.lines)

/-- A turn that admits its candidate advances the commit by its member, and leaves its robot ARMING (R72). -/
theorem afterTurn_admission {s : State} {before : List (MoveRecord × Nat)} {x : MoveRecord × Nat} {p : Plan}
    (judged : (atTurn s before).1.judgeCandidate x.1 = .admitted p) :
    afterTurn s before x = admitCandidate (atTurn s before).1 (atTurn s before).2 x.1 p ∧
      Advances [candidateOf x] [newMember (atTurn s before).1 x.1 p] (atTurn s before).1 (afterTurn s before x).1 ∧
      ((afterTurn s before x).1.robot x.1.robot).slot = .arming := by
  have turn : afterTurn s before x = admitCandidate (atTurn s before).1 (atTurn s before).2 x.1 p := examine_admitted judged
  have advances := admitCandidate_advances (c := candidateOf x) judged (atTurn_arming s before)
  rw [turn]
  exact ⟨rfl, advances, (advances.admitted _ (List.mem_singleton_self _)).2.1⟩

namespace InTurn

variable {s : State} {before after : List (MoveRecord × Nat)} {x : MoveRecord × Nat} (h : InTurn s before x after)
  (idle : ∀ w, s.wave = some w → w.state = .done) (lead chainCount chainLead : Byte)
include h

/-- A candidate alone is the whole run. -/
theorem alone (single : before = [] ∧ after = []) : atTurn s before = commitStart s ∧ commitRun s = afterTurn s before x := by
  rw [h.run, single.1, single.2]
  exact ⟨rfl, rfl⟩

/-- The zones of an admitted candidate: those that it needs are held MOVING, and from UNCERTAIN every zone that names its robot is
BLOCKED or held by another move (R54, R56). -/
theorem admits_zones {p : Plan} (judged : (atTurn s before).1.judgeCandidate x.1 = .admitted p) :
    let t := committed s lead chainCount chainLead
    let b := s.robot x.1.robot
    (∀ z ∈ neededZones b.static.links x.1.what.kind p, (t.zone z).holder = .moving x.1.robot) ∧
      (b.slot = .uncertain → ∀ z, (s.zone z).names x.1.robot = true → (t.zone z).holder = .blocked ∨
        ∃ q, (t.zone z).holder = .moving q ∧ (t.robot q).slot.inWave = true) := by
  obtain ⟨turn, own, arming⟩ := afterTurn_admission judged
  obtain ⟨_, rest⟩ := h.rest_advances
  have zone : ∀ z, (committed s lead chainCount chainLead).zone z = (commitRun s).1.zone z := zone_congr (createWave_zones ..)
  have robot : ∀ r, (committed s lead chainCount chainLead).robot r = (commitRun s).1.robot r :=
    fun _ => createWave_robot ..
  dsimp only
  simp only [zone, robot]
  refine ⟨fun z needed => ?_, fun uncertain z named => rest.held ?_⟩
  · refine rest.moving z _ ((own.admitted _ (List.mem_singleton_self _)).2.2 z ?_) (by rw [arming]; rfl)
    rwa [← h.robot_at] at needed
  · obtain ⟨plannable, planned, -⟩ := admitted_passed judged
    rw [← h.robot_at] at uncertain
    have first : ∀ q ∈ (atTurn s before).2.members, q.robot ≠ x.1.robot := fun q hq same =>
      h.apart.1 (same ▸ (atTurn_disposal s before).among.1 q hq)
    rw [turn, admitCandidate_holder _ _ plannable planned (fun _ => first), if_pos uncertain]
    split
    · exact .inl rfl
    · rename_i kept
      have names : ((atTurn s before).1.zone z).names x.1.robot = true := (atTurn_advances s before).names z _ ▸ named
      obtain ⟨q, held, wave⟩ := (keepsHolder_iff _ _).1 (Bool.of_not_eq_false fun k => kept ⟨names, k⟩)
      rw [underWay_robot, ← admitCandidate_robot (atTurn s before).2] at wave
      exact .inr ⟨q, held, wave⟩

/-- The robot, the lists and the DELIVER of an admitted candidate (R10, R72). -/
theorem admits_robot {p : Plan} (judged : (atTurn s before).1.judgeCandidate x.1 = .admitted p) :
    let t := committed s lead chainCount chainLead
    let b := s.robot x.1.robot
    t.robot x.1.robot = { b with slot := .arming, rest := if b.slot = .uncertain then .uncertain else .idle } ∧
      (∀ d ∈ t.deferred, d.record.robot ≠ x.1.robot) ∧ (t.line b.static.line).delivers x.1.robot ∧
      (before = [] ∧ after = [] →
        (t.line b.static.line).normal = offerDeliverTo (s.line b.static.line).normal x.1.robot) := by
  obtain ⟨turn, -, -⟩ := afterTurn_admission judged
  obtain ⟨_, rest⟩ := h.rest_advances
  have up := (admitted_passed judged).1.up
  have line : ∀ l, (committed s lead chainCount chainLead).line l = (commitRun s).1.line l := line_congr (createWave_lines ..)
  have offered : (afterTurn s before x).1.line (s.robot x.1.robot).static.line =
      { (atTurn s before).1.line (s.robot x.1.robot).static.line with
        normal := offerDeliverTo ((atTurn s before).1.line (s.robot x.1.robot).static.line).normal x.1.robot } := by
    rw [turn, admitCandidate_line, if_pos (by rw [h.robot_at]), if_neg (by rw [← h.robot_at]; exact up)]
  dsimp only
  rw [line, committed_eq, createWave_robot, createWave_deferred]
  refine ⟨?_, h.no_deferral ?_, rest.listed _ _ ?_, fun single => ?_⟩
  · rw [h.robot_after, turn, admitCandidate_robot, if_pos rfl, h.robot_at]
  · rw [turn, admitCandidate_deferred]
  · rw [offered]
    exact delivers_offered _ _
  · obtain ⟨start, run⟩ := h.alone single
    rw [run, offered, start]
    rfl

include idle

/-- A turn that admits nothing and leaves the zones and the lines. -/
theorem ends {b : Robot} (robot : (afterTurn s before x).1.robot x.1.robot = b)
    (members : (afterTurn s before x).2.members = (atTurn s before).2.members)
    (zones : (afterTurn s before x).1.zones = (atTurn s before).1.zones)
    (lines : (afterTurn s before x).1.lines = (atTurn s before).1.lines) :
    EndsTurn s (committed s lead chainCount chainLead) before x after b := by
  refine ⟨?_, ?_, fun single => ?_⟩
  · rw [committed_eq, createWave_robot, h.robot_after, robot]
  · rw [committed_arming s lead chainCount chainLead idle]
    exact h.no_member members
  · obtain ⟨start, run⟩ := h.alone single
    have none : (commitRun s).2.members = [] := by rw [run, members, start]; rfl
    obtain ⟨-, wave, -, -⟩ := commitRun_kept s
    rw [committed_eq, createWave_none none]
    exact ⟨wave, by rw [run, zones, start]; rfl, by rw [run, lines, start]; rfl⟩

/-- A turn that drops its candidate, after at most a raise (R71). -/
theorem drops {u : State} {why : Reason} (dropped : afterTurn s before x = dropCandidate u (atTurn s before).2 x.1 why)
    (raised : u = { (atTurn s before).1 with events := u.events }) :
    EndsTurn s (committed s lead chainCount chainLead) before x after
      { s.robot x.1.robot with lastOutcome := .dropped, lastReason := why } ∧
    ∀ d ∈ (committed s lead chainCount chainLead).deferred, d.record.robot ≠ x.1.robot := by
  have robot : u.robot x.1.robot = s.robot x.1.robot := by rw [raised, ← h.robot_at]; rfl
  obtain ⟨zones, lines, deferred⟩ : u.zones = (atTurn s before).1.zones ∧ u.lines = (atTurn s before).1.lines ∧
      u.deferred = (atTurn s before).1.deferred := by
    rw [raised]
    exact ⟨rfl, rfl, rfl⟩
  rw [committed_eq, createWave_deferred, ← committed_eq]
  refine ⟨h.ends idle _ _ _ ?_ ?_ ?_ ?_, h.no_deferral ?_⟩ <;> rw [dropped]
  · exact (setLast_robot ..).trans (by rw [robot])
  · rfl
  · exact zones
  · exact lines
  · exact deferred

/-- A candidate that fails a test of R70 before its zones. -/
theorem judged_drops {why : Reason} (judged : (atTurn s before).1.judgeCandidate x.1 = .drop why) :
    EndsTurn s (committed s lead chainCount chainLead) before x after
      { s.robot x.1.robot with lastOutcome := .dropped, lastReason := why } ∧
    ∀ d ∈ (committed s lead chainCount chainLead).deferred, d.record.robot ≠ x.1.robot :=
  h.drops idle _ _ _ (examine_drop judged) rfl

/-- A zero move (R36). -/
theorem completes (judged : (atTurn s before).1.judgeCandidate x.1 = .null) :
    EndsTurn s (committed s lead chainCount chainLead) before x after { s.robot x.1.robot with
      lastOutcome := .null, lastReason := .none
      stack := if x.1.what.kind = .retrace then (s.robot x.1.robot).stack.tail else (s.robot x.1.robot).stack } ∧
    ∀ d ∈ (committed s lead chainCount chainLead).deferred, d.record.robot ≠ x.1.robot := by
  have turn : afterTurn s before x = nullCandidate (atTurn s before).1 (atTurn s before).2 x.1 := examine_null judged
  obtain ⟨-, zones, lines⟩ := nullCandidate_still (atTurn s before).1 (atTurn s before).2 x.1
  rw [committed_eq, createWave_deferred, ← committed_eq]
  refine ⟨h.ends idle _ _ _ ?_ ?_ ?_ ?_, h.no_deferral ?_⟩ <;> rw [turn]
  · rw [nullCandidate_robot, h.robot_at]
  · rfl
  · exact zones
  · exact lines
  · exact nullCandidate_deferred ..

/-- A conflict over a zone: EXPIRED at the eighth deferral, OVERFLOW with a full list, DEFERRED otherwise (R66). -/
theorem conflicts (judged : (atTurn s before).1.judgeCandidate x.1 = .defer) :
    let t := committed s lead chainCount chainLead
    let dropped := fun why => EndsTurn s t before x after { s.robot x.1.robot with lastOutcome := .dropped, lastReason := why } ∧
      ∀ d ∈ t.deferred, d.record.robot ≠ x.1.robot
    let full := (t.deferred.filter fun d => decide (∃ c ∈ before, c.1.robot = d.record.robot)).length = 64
    (8 ≤ x.2 + 1 → dropped .expired) ∧ (x.2 + 1 < 8 → full → dropped .overflow) ∧
      (x.2 + 1 < 8 → ¬full → EndsTurn s t before x after { s.robot x.1.robot with lastOutcome := .deferred, lastReason := .zone } ∧
        ⟨x.1, x.2 + 1⟩ ∈ t.deferred) := by
  have turn : afterTurn s before x = deferCandidate (atTurn s before).1 (atTurn s before).2 (candidateOf x) :=
    examine_defer judged
  obtain ⟨capacity, -⟩ := (atTurn_advances s before).judged.deferred deferredOk_nil
  have list : (committed s lead chainCount chainLead).deferred = (commitRun s).1.deferred := createWave_deferred ..
  dsimp only
  rw [list, h.deferred_before, ← list]
  refine ⟨fun old => h.drops idle _ _ _ (turn.trans (deferCandidate_expired _ _ _ old)) rfl,
    fun young full => h.drops idle _ _ _ (turn.trans (deferCandidate_overflow _ _ _ young full.ge)) rfl,
    fun young room => ?_⟩
  have deferred := turn.trans (deferCandidate_deferred _ _ _ young fun k => room (Nat.le_antisymm capacity k))
  refine ⟨h.ends idle _ _ _ ?_ ?_ ?_ ?_, ?_⟩
  · rw [deferred, ← h.robot_at]
    exact setLast_robot ..
  · rw [deferred]
  · rw [deferred]; rfl
  · rw [deferred]; rfl
  · obtain ⟨es, _, rest⟩ := h.rest
    rw [list, rest.deferred, deferred]
    exact List.mem_append_left _ (List.mem_append_right _ (List.mem_singleton_self _))

/-- The member of an admitted candidate stands in the wave (R72, R74). -/
theorem member {p : Plan} (judged : (atTurn s before).1.judgeCandidate x.1 = .admitted p) :
    let t := committed s lead chainCount chainLead
    let b := s.robot x.1.robot
    ∃ q ∈ t.arming, (before = [] ∧ after = [] → t.arming = [q]) ∧ q.robot = x.1.robot ∧ q.line = b.static.line ∧
      q.drop = b.static.drop ∧ q.kind = x.1.what.kind ∧ q.plan = p ∧ q.delivery = .listed := by
  have turn : afterTurn s before x = admitCandidate (atTurn s before).1 (atTurn s before).2 x.1 p := examine_admitted judged
  obtain ⟨_, ms, rest⟩ := h.rest
  have members := rest.members
  rw [turn, admitCandidate_snd] at members
  dsimp only
  rw [committed_arming s lead chainCount chainLead idle, ← h.robot_at]
  refine ⟨newMember (atTurn s before).1 x.1 p, ?_, fun single => ?_, rfl, rfl, rfl, rfl, rfl, rfl⟩
  · rw [members]
    exact List.mem_append_left _ (List.mem_append_right _ (List.mem_singleton_self _))
  · obtain ⟨start, run⟩ := h.alone single
    rw [run, turn, admitCandidate_snd, start]
    rfl

end InTurn

/-- Settles O29: the tests of R70 on the state in which the candidate has its turn, then its zones. -/
theorem candidateIsTested : Obligations.CandidateIsTested := by
  intro s lead chainCount chainLead before after m count ready lead0 chain chainLead0 idle order distinct
  have h : InTurn s.hunting before (m, count) after := ⟨order, distinct⟩
  have fields : ¬(lead = 0 ∨ 7 < chainCount.toNat ∨ chainLead = 0) := by
    rintro (k | k | k)
    · exact lead0 k
    · exact absurd chain (Nat.not_le.2 k)
    · exact chainLead0 k
  have filled : ¬(s.openWave = [] ∧ s.deferred = []) := by
    rintro ⟨noOpen, noDeferred⟩
    simp [commitOrder, noOpen, noDeferred] at order
  have robot : (atTurn s.hunting before).1.robot m.robot = s.robot m.robot := h.robot_at
  have state (l : LineNo) : ((atTurn s.hunting before).1.line l).state = (s.line l).state := atTurn_state s.hunting before l
  have plan : planCandidate (atTurn s.hunting before).1 m = planCandidate s m := h.plan_at
  refine ⟨_, _, exec_committed ready fields idle filled, ?_⟩
  dsimp only
  refine ⟨fun absent => ?_, fun present disabled => ?_, fun present enabled down => ?_, fun present enabled up =>
    ⟨fun kind uncertain => ?_, fun kind located empty => ?_, fun located stacked => ?_⟩⟩
  · exact h.judged_drops idle _ _ _ (judge_absent (by rw [robot]; exact absent))
  · exact h.judged_drops idle _ _ _ (judge_disabled (by rw [robot]; exact present) (by rw [robot]; exact disabled))
  · refine h.judged_drops idle _ _ _ (judge_lineDown ?_ ?_ ?_) <;> simp only [robot, state] <;> assumption
  · refine h.judged_drops idle _ _ _ (judge_uncertain ?_ ?_ ?_ kind ?_) <;> simp only [robot, state] <;> assumption
  · refine h.judged_drops idle _ _ _ (judge_empty ?_ ?_ ?_ kind ?_ ?_) <;> simp only [robot, state] <;> assumption
  have plannable : Plannable s.hunting m := ⟨present, enabled, up, located, stacked⟩
  obtain ⟨fenced, long, null, planned⟩ := (h.plannable_at plannable).judge
  dsimp only at fenced long null planned
  rw [plan] at fenced long null planned
  cases result : planCandidate s m with
  | fenced => exact h.judged_drops idle _ _ _ (fenced result)
  | long => exact h.judged_drops idle _ _ _ (long result)
  | null => exact h.completes idle _ _ _ (null result)
  | plan p =>
    have judged := planned p result
    rw [robot] at judged
    dsimp only
    have arming := committed_arming s.hunting lead chainCount chainLead idle
    refine ⟨fun taken => ?_, fun free taken => ?_⟩
    · rw [arming] at taken
      exact h.conflicts idle _ _ _ (judged.trans (if_neg (h.conflict taken)))
    · rw [arming] at taken
      have takes := h.no_conflict (fun z hz => (free z hz).1) (fun z hz c hc cause => ?_) taken
      · have admitted := judged.trans (if_pos takes)
        obtain ⟨zones, homing⟩ := h.admits_zones lead chainCount chainLead admitted
        obtain ⟨record, list, delivers, normal⟩ := h.admits_robot lead chainCount chainLead admitted
        exact ⟨record, zones, list, homing, delivers, normal, h.member idle lead chainCount chainLead admitted⟩
      · exact absurd (Bool.and_eq_true_iff.2 ⟨decide_eq_true cause.1, cause.2⟩) (List.filter_eq_nil_iff.1 (free z hz).2 c hc)

end Sys2Proof.Machine
end

section
/-!
O9: a wave that is RUNNING or ABORTING keeps an undecided member. Every rule that decides a member ends in the completion test, which
leaves no wave complete; the others keep the outcomes.
-/

namespace Sys2Proof.Machine

variable {s t : State} {r : RobotNo}

/-! ### Operations that decide no member -/

theorem WaveOpen.of_records (h : WaveOpen s) (k : SameRecords s t) : WaveOpen t := waveOpen_congr k.wave h

/-- A wave record that is not RUNNING or ABORTING needs no undecided member. -/
theorem waveOpen_of_state (h : ∀ w, t.wave = some w → w.state ≠ .running ∧ w.state ≠ .aborting) : WaveOpen t :=
  fun w hw state => absurd state (not_or.2 (h w hw))

/-- A change that keeps a member's outcome decides nothing. -/
theorem WaveOpen.modMember (h : WaveOpen s) (r : RobotNo) {f : Member → Member} (hf : ∀ m, (f m).outcome = m.outcome) :
    WaveOpen (s.modMember r f) := by
  unfold State.modMember
  split
  · exact h
  · rename_i w hw
    intro v hv state decided
    obtain rfl := Option.some.inj hv
    refine h w hw state (undecided_eq_zero.2 fun m hm => ?_)
    have changed := undecided_eq_zero.1 decided _ (List.mem_map_of_mem hm)
    split at changed
    · simpa [Member.undecided, hf] using changed
    · exact changed

theorem WaveOpen.stopMember (h : WaveOpen s) (r : RobotNo) (ph : StopPhase) : WaveOpen (s.stopMember r ph) :=
  WaveOpen.modMember (s := (s.setSlot r .stopping).leaveCycle r) h r fun _ => rfl

theorem WaveOpen.startMember (h : WaveOpen s) (l : LineNo) (m : Member) : WaveOpen (s.startMember l m) :=
  waveOpen_congr rfl (WaveOpen.modMember (s := s.setSlot m.robot .moving) h m.robot
    (f := fun q => { q with
      goTime := some (s.setSlot m.robot .moving).now, deadline := some (overrunDeadlineOf q s.now), remaining := q.plan.n })
    fun _ => rfl)

theorem WaveOpen.foldl {α : Type} {f : State → α → State} (hf : ∀ s x, WaveOpen s → WaveOpen (f s x)) (xs : List α)
    (h : WaveOpen s) : WaveOpen (xs.foldl f s) := by
  induction xs generalizing s with
  | nil => exact h
  | cons x xs ih => exact ih (hf s x h)

/-! ### The completion test -/

/-- A commit creates an ARMING wave, or leaves the record (R73). -/
theorem commitCandidates_waveOpen (cs : List Candidate) (o : CommitOrder) (h : WaveOpen s) :
    WaveOpen (commitCandidates s cs o).1 := by
  have examined : (cs.foldl examine (s, { members := [], counts := ⟨0, 0, 0, 0⟩ })).1.wave = s.wave := by
    rw [(examined_commits cs (s, { members := [], counts := ⟨0, 0, 0, 0⟩ })).1.frame]
  unfold commitCandidates createWave
  dsimp only
  split
  · exact waveOpen_congr examined h
  · refine waveOpen_of_state fun w hw => ?_
    obtain rfl := Option.some.inj hw
    exact ⟨nofun, nofun⟩

/-- The completion of a wave leaves it DONE, or creates the next one ARMING (R84, R85). -/
theorem waveDone_waveOpen {w : Wave} (hw : s.wave = some w) : WaveOpen (waveDone s w) := by
  have finished : ((s.modWave fun w => { w with state := .done }).raise .waveDone w.number).wave =
      some { w with state := .done } := by
    show (s.modWave _).wave = _
    rw [State.modWave, hw]
  have stays {u : State} {f : Wave → Wave} (h : WaveOpen u) (hf : ∀ w, (f w).state = w.state ∧ (f w).members = w.members) :
      WaveOpen (u.modWave f) := by
    unfold State.modWave
    split
    · exact h
    · rename_i v hv
      intro x hx state
      obtain rfl := Option.some.inj hx
      rw [(hf v).1] at state
      simpa [Wave.undecided, Wave.undecidedMembers, (hf v).2] using h v hv state
  have done : WaveOpen ((s.modWave fun w => { w with state := .done }).raise .waveDone w.number) :=
    waveOpen_of_state fun v hv => by
      obtain rfl := Option.some.inj (finished.symm.trans hv)
      exact ⟨nofun, nofun⟩
  unfold waveDone
  dsimp only
  split
  · exact done
  · split
    · exact stays done fun _ => ⟨rfl, rfl⟩
    · have committed := commitCandidates_waveOpen (chainCandidates ((s.modWave fun w => { w with state := .done }).raise .waveDone w.number))
        ⟨.chain, w.chainLead, w.chainRemaining - 1, w.chainLead⟩
        (s := { (s.modWave fun w => { w with state := .done }).raise .waveDone w.number with deferred := [] }) done
      unfold chainCommit
      dsimp only
      split
      · exact waveOpen_congr rfl (stays (f := fun w => { w with chainRemaining := 0 }) committed fun _ => ⟨rfl, rfl⟩)
      · exact committed

/-- The completion test leaves no complete wave, whatever it is given (R83). -/
theorem doneTest_waveOpen (s : State) : WaveOpen (doneTest s) := by
  unfold doneTest
  split
  · rename_i none
    exact waveOpen_of_state fun w hw => by rw [none] at hw; cases hw
  · rename_i w hw
    split
    · exact waveDone_waveOpen hw
    · rename_i open'
      intro v hv state decided
      obtain rfl := Option.some.inj (hw.symm.trans hv)
      exact open' ⟨state, decided⟩

/-! ### The parts of a step -/

theorem WaveOpen.judgeEnd (h : WaveOpen s) (l : LineNo) (kind : TxnKind) (stale : Bool) (en : TxnEnd) :
    WaveOpen (judgeEnd s l kind stale en) := by
  have ite {p : Prop} [Decidable p] {a b : State} (ha : WaveOpen a) (hb : WaveOpen b) : WaveOpen (if p then a else b) := by
    split <;> assumption
  cases kind with
  | deliver r =>
    refine ite h ?_
    unfold endDeliver
    split
    · exact h
    · exact ite (doneTest_waveOpen _) h
  | read r a b => exact ite h (doneTest_waveOpen _)
  | clear r =>
    refine ite h ?_
    unfold endClear
    split
    · exact h
    · exact ite (doneTest_waveOpen _) (ite (doneTest_waveOpen _) h)
  | haltSingle r =>
    refine ite h ?_
    unfold endHalt
    split
    · exact h
    · split
      · exact doneTest_waveOpen _
      · rename_i m _ _ round _
        exact waveOpen_congr rfl (h.modMember m.robot (f := fun m => { m with stop := .read round }) fun _ => rfl)
      all_goals exact h
  | poll r => exact ite h (doneTest_waveOpen _)
  | go g => exact WaveOpen.foldl (fun _ m k => k.startMember l m) _ h
  | haltAll => exact h

theorem WaveOpen.overrunExpired (h : WaveOpen s) (r : RobotNo) : WaveOpen (overrunExpired s r) := by
  unfold Machine.overrunExpired
  split
  · exact h
  · split
    · exact h
    · split
      · exact (h.stopMember r _).of_records ⟨rfl, rfl, rfl, rfl, rfl, rfl⟩
      · exact h

theorem WaveOpen.waveMark (h : WaveOpen s) : WaveOpen (waveMark s) := by
  unfold Machine.waveMark
  split
  · exact h
  · split
    · exact doneTest_waveOpen _
    · exact h

theorem WaveOpen.perform (h : WaveOpen s) (q : Request) : WaveOpen (perform s q).state := by
  have withdraws (r : RobotNo) : (s.withdraw r).wave = s.wave := by rw [withdraw_eq]
  have mover (r : RobotNo) (p : Byte) {f : Robot → ProfileNo → Served} (hf : ∀ b q, (f b q).state.wave = s.wave) :
      WaveOpen (withMover s r p f).state := by
    refine waveOpen_congr ?_ h
    unfold withMover
    split
    · rfl
    · split
      · rfl
      · split
        · rfl
        · exact hf _ _
  have reachable (r : RobotNo) {u : State} (hu : WaveOpen u) : WaveOpen (withReachable s r u).state := by
    unfold withReachable
    split
    · exact h
    · split
      · exact h
      · exact hu
  cases q with
  | move r hub elbow p =>
    refine mover _ _ fun b q => ?_
    split
    · rfl
    · exact withdraws _
  | retrace r p =>
    refine mover _ _ fun b q => ?_
    split
    · rfl
    · exact withdraws _
  | home r p => exact mover _ _ fun _ _ => withdraws _
  | cancel r =>
    show WaveOpen (cancelRequest s r).state
    unfold cancelRequest
    split
    · exact waveOpen_congr (withdraws r) h
    · split
      · exact waveOpen_congr (withdraws r) h
      · exact h
  | halt r =>
    refine reachable r ?_
    split
    · exact (h.stopMember r _).of_records ⟨rfl, rfl, rfl, rfl, rfl, rfl⟩
    · exact h
  | refresh r => exact reachable r h
  | report | status | reset => exact h
  | load table first count records =>
    show WaveOpen (serveLoad s table first count records).state
    rcases serveLoad_cases s table first count records with k | ⟨xs, -, -, e⟩ | ⟨xs, -, e⟩
    · exact h.of_records k
    · rw [e]
      rcases loadRobots_state s first.toNat count.toNat xs with e | ⟨-, -, sel, e⟩ <;> rw [e]
      · exact h
      · refine waveOpen_congr ((settleWith_wave ..).trans ?_) h
        rw [State.modLines_wave, applyRobots_eq]
    · rw [e]
      rcases loadZones_state s first.toNat count.toNat xs with e | ⟨ms, sel, -, e⟩ <;> rw [e]
      · exact h
      · exact waveOpen_congr (settleWith_wave ..) h
  | read table first count =>
    show WaveOpen (serveRead s table first count).state
    rw [Serves.serveRead_state]; exact h
  | flags first last op mask =>
    show WaveOpen (flagsRequest s first last op mask).state
    unfold flagsRequest
    split
    · exact h
    · split <;> exact h
  | commit lead chainCount chainLead =>
    show WaveOpen (commitRequest s lead chainCount chainLead).state
    unfold commitRequest
    split
    · exact h
    · split
      · exact h
      · split
        · exact h
        · exact commitCandidates_waveOpen (s := { s with openWave := [], deferred := [] }) _ _ h
  | abort =>
    show WaveOpen (abortRequest s).state
    unfold abortRequest
    split
    · exact h
    · split
      · exact h
      · exact h
      all_goals rw [aborted_state]; exact doneTest_waveOpen _
  | take =>
    show WaveOpen (takeRequest s).state
    unfold takeRequest
    split <;> exact h
  | mask => exact h
  | lineReset mask =>
    have line (s : State) (l : LineNo) (h : WaveOpen s) : WaveOpen (resetNamed s mask l).1 := by
      unfold resetNamed
      split
      · exact WaveOpen.foldl (s := s.modLine l Line.afterReset) (fun _ k h => h.judgeEnd _ _ _ _) _ h
      · exact h
    exact line _ 3 (line _ 2 (line _ 1 (line s 0 h)))

/-- Every part of a step keeps an open wave open. -/
theorem waveOpen_kept : KeptByParts WaveOpen where
  apart _ _ k h := h.of_records k
  judgeEnd _ l k stale en h := h.judgeEnd l k stale en
  inFlight _ r h := h.modMember r fun _ => rfl
  loseMembers _ _ _ := doneTest_waveOpen _
  overrunExpired _ r h := h.overrunExpired r
  waveMark _ h := h.waveMark
  perform _ q h := h.perform q
  controllerReset s _ := waveOpen_of_state fun w hw => by
    obtain ⟨-, -, -, -, -, -, -, wave, -⟩ := controllerReset_rest s
    rw [wave] at hw; cases hw
  reset := waveOpen_of_state fun _ hw => by cases hw

end Sys2Proof.Machine
end

section
/-!
O9: the lists of every line. A robot has one entry in each, since an offer merges with what is listed, and what leaves a list leaves
the rest in its order.
-/

namespace Sys2Proof.Machine

/-- The three lists of one line obey `ListsOk` (R95, R119, R120). -/
def Line.Tidy (e : Line) : Prop :=
  (e.urgent.map UrgentEntry.robot).Nodup ∧ (e.normal.map NormalEntry.robot).Nodup ∧ (∀ x ∈ e.normal, x.live = true) ∧
    (e.cycle.map PollEntry.robot).Nodup

theorem listsOk_iff {s : State} : ListsOk s ↔ ∀ l, (s.line l).Tidy := Iff.rfl

/-- A normal list with one entry for each robot, all with work. -/
def NormalOk (n : List NormalEntry) : Prop := (n.map NormalEntry.robot).Nodup ∧ ∀ x ∈ n, x.live = true

theorem Line.tidy_iff {e : Line} : e.Tidy ↔ (e.urgent.map UrgentEntry.robot).Nodup ∧ NormalOk e.normal ∧
    (e.cycle.map PollEntry.robot).Nodup := by
  simp only [Line.Tidy, NormalOk, and_assoc]

/-! ### Lists after an offer or a removal -/

variable {r : RobotNo}

theorem nodup_filter {α : Type} {f : α → RobotNo} {xs : List α} (h : (xs.map f).Nodup) (p : α → Bool) :
    ((xs.filter p).map f).Nodup := h.sublist (List.filter_sublist.map f)

/-- An entry of a robot that has none joins a list at its tail. -/
theorem nodup_append_fresh {α : Type} {f : α → RobotNo} {xs : List α} (h : (xs.map f).Nodup) {x : α}
    (fresh : ∀ y ∈ xs, f y ≠ f x) : ((xs ++ [x]).map f).Nodup := by
  rw [List.map_append, List.map_singleton]
  refine List.nodup_append.2 ⟨h, List.nodup_singleton _, fun a ha b hb e => ?_⟩
  obtain ⟨y, hy, rfl⟩ := List.mem_map.1 ha
  exact fresh y hy (e.trans (List.mem_singleton.1 hb))

/-- A change of entries that keeps their robots. -/
theorem map_robot {α : Type} {f : α → RobotNo} {g : α → α} (hg : ∀ x, f (g x) = f x) (xs : List α) :
    (xs.map g).map f = xs.map f := by
  rw [List.map_map]
  exact List.map_congr_left fun x _ => hg x

theorem not_listed {α : Type} {f : α → RobotNo} {xs : List α} (h : ¬(xs.any fun x => decide (f x = r)) = true) :
    ∀ y ∈ xs, f y ≠ r := by
  simpa using h

theorem offerHaltTo_nodup {u : List UrgentEntry} (h : (u.map UrgentEntry.robot).Nodup) :
    ((offerHaltTo u r).map UrgentEntry.robot).Nodup := by
  unfold offerHaltTo
  split
  · exact h
  · rename_i fresh
    exact nodup_append_fresh h (not_listed fresh)

theorem offerClearTo_nodup {u : List UrgentEntry} (h : (u.map UrgentEntry.robot).Nodup) :
    ((offerClearTo u r).map UrgentEntry.robot).Nodup := by
  unfold offerClearTo
  split
  · rwa [map_robot fun x => by split <;> simp_all]
  · rename_i fresh
    exact nodup_append_fresh h (not_listed fresh)

theorem offerReadTo_ok {n : List NormalEntry} (h : NormalOk n) {a b : Bool} (read : (a || b) = true) :
    NormalOk (offerReadTo n r a b) := by
  obtain ⟨nodup, live⟩ := h
  unfold offerReadTo
  split
  · refine ⟨by rwa [map_robot fun x => by split <;> rfl], fun x hx => ?_⟩
    obtain ⟨y, hy, rfl⟩ := List.mem_map.1 hx
    have works := live y hy
    simp only [NormalEntry.live, NormalEntry.hasRead] at works ⊢
    split
    · cases a <;> cases b <;> simp_all
    · exact works
  · rename_i fresh
    refine ⟨nodup_append_fresh nodup (not_listed fresh), fun x hx => ?_⟩
    rcases List.mem_append.1 hx with hx | hx
    · exact live x hx
    · rw [List.mem_singleton.1 hx]; exact read

theorem offerDeliverTo_ok {n : List NormalEntry} (h : NormalOk n) : NormalOk (offerDeliverTo n r) := by
  obtain ⟨nodup, live⟩ := h
  refine ⟨nodup_append_fresh (nodup_filter nodup _) fun y hy => by simpa using (List.mem_filter.1 hy).2, fun x hx => ?_⟩
  rcases List.mem_append.1 hx with hx | hx
  · exact live x (List.mem_filter.1 hx).1
  · rw [List.mem_singleton.1 hx]; rfl

/-- Entries that lose work stay only while they hold some. -/
theorem filterLive_ok {n : List NormalEntry} (h : NormalOk n) {g : NormalEntry → NormalEntry}
    (hg : ∀ x, (g x).robot = x.robot) : NormalOk ((n.map g).filter NormalEntry.live) :=
  ⟨nodup_filter (by rw [map_robot hg]; exact h.1) _, fun _ hx => (List.mem_filter.1 hx).2⟩

theorem dropDeliver_ok {n : List NormalEntry} (h : NormalOk n) : NormalOk (dropDeliver n r) :=
  filterLive_ok h fun x => by split <;> rfl

theorem dropReads_ok {n : List NormalEntry} (h : NormalOk n) (p : RobotNo → Bool) : NormalOk (dropReads n p) :=
  filterLive_ok h fun x => by split <;> rfl

theorem normalOk_filter {n : List NormalEntry} (h : NormalOk n) (p : NormalEntry → Bool) : NormalOk (n.filter p) :=
  ⟨nodup_filter h.1 p, fun x hx => h.2 x (List.mem_filter.1 hx).1⟩

theorem normalOk_nil : NormalOk [] := ⟨List.nodup_nil, fun _ hx => absurd hx List.not_mem_nil⟩

/-- The head of a normal list, its DELIVER taken, leaves the READ joined to it, if any (R120). -/
theorem normalOk_head {x : NormalEntry} {rest : List NormalEntry} (h : NormalOk (x :: rest)) :
    NormalOk rest ∧ NormalOk (if x.hasRead then { x with deliver := false } :: rest else rest) := by
  obtain ⟨nodup, live⟩ := h
  have tail : NormalOk rest := ⟨(List.nodup_cons.1 nodup).2, fun y hy => live y (List.mem_cons_of_mem _ hy)⟩
  refine ⟨tail, ?_⟩
  split
  · rename_i read
    refine ⟨nodup, fun y hy => ?_⟩
    rcases List.mem_cons.1 hy with rfl | hy
    · exact read
    · exact tail.2 y hy
  · exact tail

/-! ### Lines after an offer or a removal -/

namespace Line.Tidy

variable {e : Line}

theorem ite {p : Prop} [Decidable p] {a b : Line} (ha : a.Tidy) (hb : b.Tidy) : (if p then a else b).Tidy := by
  split <;> assumption

theorem urgent (h : e.Tidy) {u : List UrgentEntry} (hu : (u.map UrgentEntry.robot).Nodup) : Line.Tidy { e with urgent := u } :=
  ⟨hu, h.2⟩

theorem normal (h : e.Tidy) {n : List NormalEntry} (hn : NormalOk n) : Line.Tidy { e with normal := n } :=
  tidy_iff.2 ⟨(tidy_iff.1 h).1, hn, (tidy_iff.1 h).2.2⟩

theorem cycle (h : e.Tidy) {c : List PollEntry} (hc : (c.map PollEntry.robot).Nodup) : Line.Tidy { e with cycle := c } :=
  tidy_iff.2 ⟨(tidy_iff.1 h).1, (tidy_iff.1 h).2.1, hc⟩

/-- A line with none of its work (R134). -/
theorem emptied (h : e.urgent = [] ∧ e.normal = [] ∧ e.cycle = []) : e.Tidy := by
  obtain ⟨u, n, c⟩ := h
  rw [tidy_iff, u, n, c]
  exact ⟨List.nodup_nil, normalOk_nil, List.nodup_nil⟩

end Line.Tidy

/-! ### The operations on lines -/

namespace ListsOk

variable {s t : State} {l : LineNo}

/-- The law reads the lines alone. -/
theorem of_lines (h : ListsOk s) (k : ∀ l, t.line l = s.line l) : ListsOk t := fun l => by rw [k l]; exact h l

/-- Each line of a state that obeys the law. -/
theorem tidy (h : ListsOk s) (l : LineNo) : (s.line l).Tidy := h l

theorem modLine (h : ListsOk s) (l : LineNo) {f : Line → Line} (hf : ∀ e : Line, e.Tidy → (f e).Tidy) :
    ListsOk (s.modLine l f) := by
  intro k
  rw [line_modLine]
  split
  · exact hf _ (h k)
  · exact h k

theorem ite {p : Prop} [Decidable p] {a b : State} (ha : ListsOk a) (hb : ListsOk b) : ListsOk (if p then a else b) := by
  split <;> assumption

theorem foldl {α : Type} {f : State → α → State} (hf : ∀ s x, ListsOk s → ListsOk (f s x)) (xs : List α) (h : ListsOk s) :
    ListsOk (xs.foldl f s) := by
  induction xs generalizing s with
  | nil => exact h
  | cons x xs ih => exact ih (hf s x h)

theorem offerHalt (h : ListsOk s) (r : RobotNo) : ListsOk (s.offerHalt r) :=
  h.modLine _ fun _ k => .ite k (k.urgent (offerHaltTo_nodup k.1))

theorem offerClear (h : ListsOk s) (r : RobotNo) : ListsOk (s.offerClear r) :=
  h.modLine _ fun _ k => .ite k (k.urgent (offerClearTo_nodup k.1))

theorem offerRead (h : ListsOk s) (r : RobotNo) {a b : Bool} (read : (a || b) = true) : ListsOk (s.offerRead r a b) :=
  h.modLine _ fun _ k => .ite k (k.normal (offerReadTo_ok (Line.tidy_iff.1 k).2.1 read))

theorem offerDeliver (h : ListsOk s) (r : RobotNo) : ListsOk (s.offerDeliver r) :=
  h.modLine _ fun _ k => .ite k (k.normal (offerDeliverTo_ok (Line.tidy_iff.1 k).2.1))

theorem removeDeliver (h : ListsOk s) (r : RobotNo) : ListsOk (s.removeDeliver r) :=
  h.modLine _ fun _ k => k.normal (dropDeliver_ok (Line.tidy_iff.1 k).2.1)

theorem removeRead (h : ListsOk s) (r : RobotNo) : ListsOk (s.removeRead r) :=
  h.modLine _ fun _ k => k.normal (dropReads_ok (Line.tidy_iff.1 k).2.1 _)

theorem offerHaltAll (h : ListsOk s) (l : LineNo) : ListsOk (s.offerHaltAll l) := h.modLine _ fun _ k => .ite k k

theorem offerGo (h : ListsOk s) (l : LineNo) (g : GoFlag) : ListsOk (s.offerGo l g) := h.modLine _ fun _ k => .ite k k

theorem joinCycle (h : ListsOk s) (l : LineNo) (r : RobotNo) (due : Nat) : ListsOk (s.joinCycle l r due) :=
  h.modLine _ fun _ k => .ite k (k.cycle (nodup_append_fresh (nodup_filter k.2.2.2 _) fun y hy => by
    simpa using (List.mem_filter.1 hy).2))

theorem nextPoll (h : ListsOk s) (l : LineNo) (r : RobotNo) (due : Nat) : ListsOk (s.nextPoll l r due) :=
  h.modLine _ fun _ k => k.cycle (by rw [map_robot fun p => by split <;> rfl]; exact k.2.2.2)

theorem leaveCycle (h : ListsOk s) (r : RobotNo) : ListsOk (s.leaveCycle r) :=
  h.modLine _ fun _ k => k.cycle (nodup_filter k.2.2.2 _)

theorem leaveLists (h : ListsOk s) (r : RobotNo) : ListsOk (s.leaveLists r) :=
  h.modLine _ fun _ k => Line.tidy_iff.2
    ⟨nodup_filter k.1 _, normalOk_filter (Line.tidy_iff.1 k).2.1 _, nodup_filter k.2.2.2 _⟩

/-! ### Members and waves -/

theorem modMember (h : ListsOk s) (r : RobotNo) (f : Member → Member) : ListsOk (s.modMember r f) :=
  h.of_lines fun l => line_modMember s r f l

theorem modWave (h : ListsOk s) (f : Wave → Wave) : ListsOk (s.modWave f) :=
  h.of_lines fun l => line_congr (State.modWave_lines s f) l

theorem becomeUncertain (h : ListsOk s) (r : RobotNo) : ListsOk (s.becomeUncertain r) :=
  h.of_lines fun l => becomeUncertain_line s r l

theorem conclude (h : ListsOk s) (r : RobotNo) (o : Ending) (why : Reason) : ListsOk (s.conclude r o why) :=
  leaveCycle (s := (s.modMember r fun m => m.decided o why).setLast r o why) (h.modMember _ _) r

theorem concludeUncertain (h : ListsOk s) (r : RobotNo) (o : Ending) (why : Reason) : ListsOk (s.concludeUncertain r o why) :=
  (h.conclude r o why).becomeUncertain r

theorem concludeAtRest (h : ListsOk s) (r : RobotNo) (o : Ending) (why : Reason) : ListsOk (s.concludeAtRest r o why) :=
  (h.conclude r o why).of_lines concludeAtRest_line

theorem arrive (h : ListsOk s) (m : Member) : ListsOk (s.arrive m) :=
  (h.conclude m.robot .arrived .none).of_lines (arrive_line rfl)

theorem concludeLost (h : ListsOk s) (r : RobotNo) (why : Reason) : ListsOk (s.concludeLost r why) :=
  h.concludeUncertain r .lost why

theorem concludeStalled (h : ListsOk s) (r : RobotNo) (why : Reason) : ListsOk (s.concludeStalled r why) :=
  h.concludeUncertain r .stalled why

theorem stopMember (h : ListsOk s) (r : RobotNo) (ph : StopPhase) : ListsOk (s.stopMember r ph) :=
  modMember (s := (s.setSlot r .stopping).leaveCycle r) (leaveCycle (s := s.setSlot r .stopping) h r) _ _

theorem setDelivery (h : ListsOk s) (r : RobotNo) (d : Delivery) : ListsOk (s.setDelivery r d) := h.modMember _ _

theorem missListed (h : ListsOk s) (r : RobotNo) : ListsOk (s.missListed r) :=
  ((h.removeDeliver r).setDelivery r _).concludeAtRest _ _ _

/-! ### The commit and the completion test -/

theorem admitCandidate (h : ListsOk s) (run : CommitRun) (m : MoveRecord) (p : Plan) :
    ListsOk (admitCandidate s run m p).1 := by
  have taken (zs : List ZoneId) (s : State) : (s.takeZones m.robot zs).lines = s.lines := by
    induction zs generalizing s with
    | nil => rfl
    | cons z zs ih => exact ih _
  have offered : ListsOk (((s.takeZones m.robot (neededZones (s.robot m.robot).static.links m.what.kind p)).modRobot m.robot
      fun b => { b with rest := (newMember s m p).rest, slot := .arming }).offerDeliver m.robot) :=
    (h.of_lines (t := (s.takeZones m.robot (neededZones (s.robot m.robot).static.links m.what.kind p)).modRobot m.robot _)
      (line_congr (taken _ s))).offerDeliver _
  unfold Machine.admitCandidate
  exact ite (offered.of_lines fun l => settleWith_line ..) offered

theorem examine {acc : State × CommitRun} (h : ListsOk acc.1) (c : Candidate) : ListsOk (examine acc c).1 := by
  unfold Machine.examine
  dsimp only
  split
  · exact h
  · unfold nullCandidate
    dsimp only
    split <;> exact h
  · unfold deferCandidate
    dsimp only
    split
    · exact h
    · split <;> exact h
  · exact h.admitCandidate _ _ _

theorem commitCandidates (h : ListsOk s) (cs : List Candidate) (o : CommitOrder) : ListsOk (commitCandidates s cs o).1 := by
  have examined (cs : List Candidate) (acc : State × CommitRun) (h : ListsOk acc.1) :
      ListsOk (cs.foldl Machine.examine acc).1 := by
    induction cs generalizing acc with
    | nil => exact h
    | cons c cs ih => exact ih _ (h.examine c)
  have all := examined cs (s, { members := [], counts := ⟨0, 0, 0, 0⟩ }) h
  unfold Machine.commitCandidates createWave
  exact ite all all

theorem waveDone (h : ListsOk s) (w : Wave) : ListsOk (waveDone s w) := by
  have done : ListsOk ((s.modWave fun w => { w with state := .done }).raise .waveDone w.number) :=
    (h.modWave fun w => { w with state := .done })
  unfold Machine.waveDone
  refine ite done (ite (done.modWave _) ?_)
  have committed := commitCandidates (s := { (s.modWave fun w => { w with state := .done }).raise .waveDone w.number with
    deferred := [] }) done
  exact ite (modWave (committed _ _) _) (committed _ _)

theorem doneTest (h : ListsOk s) : ListsOk (doneTest s) := by
  unfold Machine.doneTest
  split
  · exact h
  · exact ite (h.waveDone _) h

theorem armTest (h : ListsOk s) : ListsOk (armTest s) := by
  unfold Machine.armTest
  split
  · exact h
  · exact ite (h.modWave _) h

/-! ### The start mark and the abort -/

theorem raise (h : ListsOk s) (c : EventClass) (d : Half) : ListsOk (s.raise c d) := h

theorem startWave (h : ListsOk s) (w : Wave) : ListsOk (startWave s w) := by
  have missed := foldl (fun _ r k => k.missListed r) (s.memberRobots Member.isListed)
    (h.modWave fun w => { w with state := .running })
  have late := foldl (f := fun s r => s.modMember r fun m => { m with late := true }) (fun _ r k => k.modMember r _)
    (s.memberRobots Member.isInFlight) missed
  have goes := foldl (f := State.goOnLine w.number) (fun _ l k => ite (k.offerGo l _) k) allLines late
  exact (ite goes (goes.raise _ _)).doneTest

theorem waveMark (h : ListsOk s) : ListsOk (waveMark s) := by
  unfold Machine.waveMark
  split
  · exact h
  · exact ite (h.startWave _) h

theorem abortMember (h : ListsOk s) (r : RobotNo) : ListsOk (s.abortMember r) := (h.stopMember r _).offerRead r rfl

theorem abortWave (h : ListsOk s) : ListsOk (abortWave s).1 := by
  have released : ListsOk ((s.modWave fun w => { w with state := .aborting, chainRemaining := 0 }).modLines
      fun e => { e with goPending := none }) := fun l => by
    rw [line_modLines]
    exact h.modWave (fun w => { w with state := .aborting, chainRemaining := 0 }) l
  exact foldl (fun _ r k => k.abortMember r) _ (foldl (f := State.haltLine) (fun _ l k => ite (k.offerHaltAll l) k) allLines
    (foldl (fun _ r k => k.missListed r) (s.memberRobots Member.isListed) released))

/-! ### The ends of transactions -/

theorem removeAbortRead (h : ListsOk s) (m : Member) : ListsOk (s.removeAbortRead m) := ite h (h.removeRead _)

theorem beginClear (h : ListsOk s) (m : Member) (b : Bool) : ListsOk (s.beginClear m b) :=
  ((modMember (s := s.setSlot m.robot .stopping) h m.robot _).removeAbortRead m).offerClear _

theorem judgeDeliver (h : ListsOk s) (m : Member) (en : TxnEnd) : ListsOk (judgeDeliver s m en) := by
  cases en with
  | accepted => exact ite (h.beginClear m _) (ite (h.setDelivery m.robot _) (h.setDelivery m.robot _))
  | refused f => exact ((removeAbortRead (s := s.setFaultCode m.robot f) h m).setDelivery _ _).concludeAtRest _ _ _
  | failed b => exact h.beginClear m b
  | polled | statused => exact h

theorem judgeClear (h : ListsOk s) (m : Member) (en : TxnEnd) : ListsOk (judgeClear s m en) := by
  cases en with
  | accepted => exact (h.setDelivery _ _).concludeAtRest _ _ _
  | refused f => exact (modMember (s := s.setFaultCode m.robot f) h _ _).offerHalt _
  | failed b => exact (h.setDelivery _ _).concludeLost _ _
  | polled | statused => exact h

theorem judgeReadBackClear (h : ListsOk s) (m : Member) (en : TxnEnd) : ListsOk (judgeReadBackClear s m en) := by
  cases en with
  | accepted => exact h.concludeAtRest _ _ _
  | refused f => exact concludeUncertain (s := s.setFaultCode m.robot f) h _ _ _
  | failed b => exact h.concludeLost _ _
  | polled | statused => exact h

theorem judgeAtRest (h : ListsOk s) (m : Member) (p : Pair) : ListsOk (judgeAtRest s m p) :=
  leaveLists (ite (h.concludeAtRest _ _ _) (ite (h.arrive m) (h.concludeUncertain _ _ _))) _

theorem judgeReadBack (h : ListsOk s) (m : Member) (round : Nat) (code : Byte) (posOk : Bool) (p : Pair) :
    ListsOk (judgeReadBack s m round code posOk p) := by
  unfold Machine.judgeReadBack
  split
  · exact h.judgeAtRest m p
  · exact (h.modMember _ _).offerClear _
  · exact ite (h.judgeAtRest m p) (h.concludeStalled _ _)
  · exact h.concludeStalled _ _
  · exact h.concludeStalled _ _
  · exact ite ((h.modMember _ _).offerHalt _) (h.concludeUncertain _ _ _)

theorem judgeRefresh (h : ListsOk s) (r : RobotNo) (code : Byte) (p : Pair) : ListsOk (judgeRefresh s r code p) :=
  ite (becomeUncertain (s := s.setLast r .stalled .drift) h r) h

theorem judgeRead (h : ListsOk s) (r : RobotNo) (refresh readBack : Bool) (en : TxnEnd) :
    ListsOk (judgeRead s r refresh readBack en) := by
  cases en with
  | statused code posOk fault p =>
    have stored : ListsOk (s.storeStatus r fault p) := h
    unfold Machine.judgeRead
    dsimp only
    split
    · split
      · exact stored.judgeReadBack _ _ _ _ _
      · exact ite (stored.judgeRefresh _ _ _) stored
    · exact ite (stored.judgeRefresh _ _ _) stored
  | failed b =>
    unfold Machine.judgeRead
    dsimp only
    split
    · split
      · exact h.concludeLost _ _
      · exact h
    · exact h
  | accepted | refused | polled => exact h

theorem judgePollAnswer (h : ListsOk s) (m : Member) (n : Half) (code : Byte) (posOk : Bool) (fault : Byte)
    (wave remaining : Half) : ListsOk (judgePollAnswer s m n code posOk fault wave remaining) := by
  have stalls (why : Reason) : ListsOk (judgePollStall s m fault why) :=
    concludeStalled (s := s.setFaultCode m.robot fault) h _ _
  have moves : ListsOk (judgePollMoving s m remaining) := (h.modMember _ _).nextPoll _ _ _
  unfold Machine.judgePollAnswer
  refine ite (((h.stopMember _ _).modMember _ _).offerClear _) (ite (stalls _) ?_)
  split
  · exact moves
  · exact moves
  · exact ite (h.arrive m) (stalls _)
  all_goals exact stalls _

theorem judgePoll (h : ListsOk s) (r : RobotNo) (en : TxnEnd) : ListsOk (judgePoll s r en) := by
  unfold Machine.judgePoll
  split
  · refine ite ?_ h
    split
    · exact h.judgePollAnswer _ _ _ _ _ _ _
    · exact h.concludeLost _ _
    all_goals exact h
  · exact h

theorem startMember (h : ListsOk s) (l : LineNo) (m : Member) : ListsOk (s.startMember l m) :=
  joinCycle (modMember (s := s.setSlot m.robot .moving) h _ _) _ _ _

theorem judgeEnd (h : ListsOk s) (l : LineNo) (kind : TxnKind) (stale : Bool) (en : TxnEnd) :
    ListsOk (judgeEnd s l kind stale en) := by
  cases kind with
  | deliver r =>
    refine ite h ?_
    unfold endDeliver
    split
    · exact h
    · exact ite (h.judgeDeliver _ _).armTest.doneTest h
  | read r a b => exact ite h (h.judgeRead _ _ _ _).doneTest
  | clear r =>
    refine ite h ?_
    unfold endClear
    split
    · exact h
    · exact ite (h.judgeClear _ _).armTest.doneTest (ite (h.judgeReadBackClear _ _).armTest.doneTest h)
  | haltSingle r =>
    refine ite h ?_
    unfold endHalt
    split
    · exact h
    · split
      · exact doneTest (s := judgeOverrunHalt s _ en) (h.concludeUncertain _ _ _)
      · exact (h.modMember _ _).offerRead _ rfl
      all_goals exact h
  | poll r => exact ite h (h.judgePoll _ _).doneTest
  | go g => exact foldl (fun _ m k => k.startMember l m) _ h
  | haltAll => exact h

theorem loseMembers (h : ListsOk s) (l : LineNo) : ListsOk (loseMembers s l) :=
  (foldl (f := State.loseMember) (fun _ _ k => (k.modMember _ _).concludeUncertain _ _ _) _ h).armTest.doneTest

theorem overrunExpired (h : ListsOk s) (r : RobotNo) : ListsOk (overrunExpired s r) := by
  unfold Machine.overrunExpired
  split
  · exact h
  · split
    · exact h
    · exact ite ((h.stopMember _ _).offerHalt _) h

end ListsOk

end Sys2Proof.Machine
end

section
/-!
O9: the lists, through the Line Engine, the requests and the port; and the step.
-/

namespace Sys2Proof.Machine

namespace ListsOk

variable {s t : State} {l : LineNo}

/-! ### The Line Engine -/

/-- A change of a line that leaves its lists. -/
theorem engine (h : ListsOk s) (l : LineNo) {f : Line → Line}
    (hf : ∀ e, (f e).urgent = e.urgent ∧ (f e).normal = e.normal ∧ (f e).cycle = e.cycle) : ListsOk (s.modLine l f) :=
  h.modLine l fun e k => by
    obtain ⟨urgent, normal, cycle⟩ := hf e
    rw [Line.Tidy, urgent, normal, cycle]
    exact k

theorem touch (h : ListsOk s) : ListsOk (s.touchLine l) := h.engine l fun _ => ⟨rfl, rfl, rfl⟩
theorem setTxn (h : ListsOk s) (st : EngineState) (x : Txn) : ListsOk (s.setTxn l st x) := h.engine l fun _ => ⟨rfl, rfl, rfl⟩
theorem clearResidue (h : ListsOk s) : ListsOk (s.clearResidue l) := h.engine l fun _ => ⟨rfl, rfl, rfl⟩
theorem setResidue (h : ListsOk s) (ρ : Residue) (ph : Phase) : ListsOk (s.setResidue l ρ ph) :=
  h.engine l fun _ => ⟨rfl, rfl, rfl⟩
theorem countGarbled (h : ListsOk s) : ListsOk (s.countGarbled l) := h.engine l fun _ => ⟨rfl, rfl, rfl⟩
theorem countRetry (h : ListsOk s) : ListsOk (s.countRetry l) := h.engine l fun _ => ⟨rfl, rfl, rfl⟩
theorem heard (h : ListsOk s) : ListsOk (s.heard l) := h.engine l fun _ => ⟨rfl, rfl, rfl⟩
theorem countSilence (h : ListsOk s) : ListsOk (s.countSilence l) := h.engine l fun _ => ⟨rfl, rfl, rfl⟩
theorem startTxn (h : ListsOk s) (k : TxnKind) (b : Option Body) (d : Byte) (st : EngineState) (f : FrameKind) :
    ListsOk (s.startTxn l k b d st f) := h.engine l fun _ => ⟨rfl, rfl, rfl⟩

/-- A change of one line is judged by that line alone. -/
theorem setLists (h : ListsOk s) {f : Line → Line} (hf : (f (s.line l)).Tidy) : ListsOk (s.modLine l f) := by
  intro k
  rw [line_modLine]
  split
  · rename_i here; subst here; exact hf
  · exact h k

/-- The urgent head is taken from the list (R119). -/
theorem startUrgent (h : ListsOk s) {x : UrgentEntry} {rest : List UrgentEntry} (hu : (s.line l).urgent = x :: rest) :
    ListsOk (startUrgent s l x rest) := by
  have tail : ListsOk (s.modLine l fun e => { e with urgent := rest }) :=
    h.setLists ((h.tidy l).urgent (List.nodup_cons.1 (hu ▸ (h l).1)).2)
  unfold Machine.startUrgent
  dsimp only
  split <;> exact tail.startTxn _ _ _ _ _

/-- The DELIVER or the READ of the normal head is taken from the list (R120). -/
theorem startNormal (h : ListsOk s) {x : NormalEntry} {rest : List NormalEntry} (hn : (s.line l).normal = x :: rest) :
    ListsOk (startNormal s l x rest) := by
  obtain ⟨tail, head⟩ := normalOk_head (hn ▸ (Line.tidy_iff.1 (h l)).2.1)
  have taken : ListsOk (s.modLine l fun e =>
      { e with normal := if x.hasRead then { x with deliver := false } :: rest else rest }) := h.setLists ((h.tidy l).normal head)
  unfold Machine.startNormal
  dsimp only
  split
  · split
    · exact taken
    · exact (taken.setDelivery _ _).startTxn _ _ _ _ _
  · exact startTxn (s := s.modLine l fun e => { e with normal := rest }) (h.setLists ((h.tidy l).normal tail)) _ _ _ _ _

theorem arbiter (h : ListsOk s) : ListsOk (arbiter s l) := by
  unfold Machine.arbiter
  refine ite ?_ h
  unfold arbiterChoice
  dsimp only
  split
  · exact startTxn (s := s.modLine l fun e => { e with haltPending := false }) (h.engine l fun _ => ⟨rfl, rfl, rfl⟩) _ _ _ _ _
  · split
    · exact startTxn (s := s.modLine l fun e => { e with goPending := none }) (h.engine l fun _ => ⟨rfl, rfl, rfl⟩) _ _ _ _ _
    · split
      · rename_i hu; exact h.startUrgent hu
      · split
        · rename_i hn; exact h.startNormal hn
        · split
          · exact h.startTxn _ _ _ _ _
          · exact h

theorem finishTxn (h : ListsOk s) (x : Txn) (en : TxnEnd) : ListsOk (finishTxn s l x en) :=
  judgeEnd (s := s.freeEngine l) (h.engine l fun _ => ⟨rfl, rfl, rfl⟩) _ _ _ _

theorem attemptFailed (h : ListsOk s) (x : Txn) (f : FrameKind) (n : Nat) : ListsOk (attemptFailed s l x f n) := by
  have ending : ListsOk (beginEnding s l x) := h.setTxn _ _
  have short : ListsOk (Machine.attemptFailed.shortFailed s l x f n) := ite (h.setTxn _ _) (h.finishTxn _ _)
  cases f with
  | call => exact ite (h.setTxn _ _) ending
  | body | readRequest => exact ending
  | clear | halt | poll => exact short
  | endFrame | go | haltAll => exact h

theorem takeAnswer (h : ListsOk s) (x : Txn) (f : FrameKind) (a : Answer) : ListsOk (takeAnswer s l x f a) := by
  cases a with
  | ready => exact h.setTxn _ _
  | notReady => exact h.attemptFailed _ _ _
  | retry => exact ite (h.setTxn _ _) (h.setTxn _ _)
  | accept | refuse | poll | status => exact h.finishTxn _ _

theorem garbledAnswer (h : ListsOk s) (x : Txn) (f : FrameKind) : ListsOk (garbledAnswer s l x f) :=
  h.countGarbled.heard.attemptFailed _ _ _

theorem residueAnswer (h : ListsOk s) (v : Bool) : ListsOk (residueAnswer s l v) :=
  ite h.clearResidue h.clearResidue.countGarbled

theorem receiveAnswer (h : ListsOk s) (a : Option Answer) : ListsOk (receiveAnswer s l a) := by
  have touched : ListsOk (s.touchLine l) := h.touch
  have judge : ∀ x f since, ListsOk (Machine.receiveAnswer.judgeAnswer s l a (s.touchLine l) x f since) := by
    intro x f since
    unfold Machine.receiveAnswer.judgeAnswer
    split
    · exact touched.garbledAnswer _ _
    · exact ite (touched.heard.takeAnswer _ _ _) (touched.garbledAnswer _ _)
  unfold Machine.receiveAnswer
  dsimp only
  split
  · split
    · exact touched.residueAnswer _
    · exact touched
  · split
    · exact touched
    · split
      · exact judge _ _ _
      · exact touched

theorem cutShort (h : ListsOk s) (b : Bool) : ListsOk (cutShort s l b) := by
  have cut : ListsOk (s.modLine l fun e => { e with lastChar := max e.lastChar (s.now - Config.charGap) }) :=
    h.engine l fun _ => ⟨rfl, rfl, rfl⟩
  unfold Machine.cutShort
  dsimp only
  split
  · split
    · exact ite h (cut.residueAnswer _)
    all_goals exact h
  · split
    · exact h
    · split
      · exact ite h (cut.garbledAnswer _ _)
      all_goals exact h

theorem beginAnswer (h : ListsOk s) : ListsOk (beginAnswer s l) := by
  unfold Machine.beginAnswer
  dsimp only
  split
  · split
    · exact h.touch.setResidue _ _
    · exact h.touch
  · split
    · exact h.touch
    · split
      · exact h.touch.setTxn _ _
      · exact h.touch

/-- A line that goes DOWN has no work left (R134). -/
theorem lineDown (h : ListsOk s) : ListsOk (lineDown s l) :=
  loseMembers (s := (s.modLine l fun e => { e with
    state := .down, txn := none, urgent := [], normal := [], cycle := [], haltPending := false, goPending := none }).raise
    .lineDown (halfOf l.val)) (raise (h.modLine l fun _ _ => .emptied ⟨rfl, rfl, rfl⟩) _ _) l

theorem waitSilence (h : ListsOk s) : ListsOk (waitSilence s l) := by
  have silent (x : Txn) (f : FrameKind) : ListsOk (silentWait s l x f) :=
    ite h.countSilence.lineDown (h.countSilence.attemptFailed _ _ _)
  unfold Machine.waitSilence
  split
  · exact h
  · split
    · exact ite (silent _ _) h
    all_goals exact h

theorem frameSent (h : ListsOk s) : ListsOk (frameSent s l) := by
  unfold Machine.frameSent
  dsimp only
  split
  · split
    · exact ite (h.touch.setResidue _ _) h
    · exact h
  · split
    · exact h
    · split
      · exact ite (h.touch.setTxn _ _) h
      · exact h

theorem broadcastEnds (h : ListsOk s) : ListsOk (broadcastEnds s l) := by
  unfold Machine.broadcastEnds
  dsimp only
  split
  · exact ite (ite (h.touch.clearResidue.judgeEnd _ _ _ _) h.touch.clearResidue) h
  · split
    · exact h
    · exact ite (h.touch.finishTxn _ _) h

theorem endEnds (h : ListsOk s) : ListsOk (endEnds s l) := by
  unfold Machine.endEnds
  dsimp only
  split
  · exact ite h.touch.clearResidue h
  · split
    · exact h
    · exact ite (h.touch.finishTxn _ _) h

theorem nextFrame (h : ListsOk s) (b : Bool) : ListsOk (nextFrame s l b) := by
  have sends (x : Txn) (f : FrameKind) : ListsOk (sendFrame s l x f) :=
    ite (ite (h.setTxn _ _) (h.setTxn _ _).countRetry) (h.setTxn _ _).countRetry
  unfold Machine.nextFrame
  dsimp only
  split
  · exact h
  · split
    · exact ite (ite (h.setTxn _ _) (sends _ _)) h
    all_goals exact h

/-- A LINE_RESET empties the urgent and the normal list, and hands every failure over (R135). -/
theorem resetLine (h : ListsOk s) : ListsOk (resetLine s l) :=
  foldl (fun _ _ h => h.judgeEnd _ _ _ _) _ (h.modLine l (f := Line.afterReset) fun _ tidy =>
    Line.tidy_iff.2 ⟨List.nodup_nil, normalOk_nil, tidy.2.2.2⟩)

/-! ### The requests -/

theorem withdraw (h : ListsOk s) (r : RobotNo) : ListsOk (s.withdraw r) :=
  h.of_lines fun l => by rw [withdraw_eq]; rfl

theorem placeRecord (h : ListsOk s) (m : MoveRecord) : ListsOk (s.placeRecord m) := h.withdraw m.robot

theorem withMover (h : ListsOk s) (r : RobotNo) (p : Byte) {f : Robot → ProfileNo → Served}
    (hf : ∀ b q, ListsOk (f b q).state) : ListsOk (withMover s r p f).state := by
  unfold Machine.withMover
  split
  · exact h
  · split
    · exact h
    · split
      · exact h
      · exact hf _ _

theorem withReachable (h : ListsOk s) (r : RobotNo) (k : ListsOk t) : ListsOk (withReachable s r t).state := by
  unfold Machine.withReachable
  split
  · exact h
  · split
    · exact h
    · exact k

/-- A LOAD of robot records takes READs and HALT singles of its run from the lists (R7). -/
theorem loadRobots (h : ListsOk s) (first count : Nat) (records : List (List Byte)) :
    ListsOk (loadRobots s first count records).state := by
  rcases loadRobots_state s first count records with e | ⟨-, -, sel, e⟩ <;> rw [e]
  · exact h
  · intro l
    rw [State.settle, settleWith_line, line_modLines]
    have same : (applyRobots s ((robotsIn first count).zip ((records.map rawRobot).map RawRobot.static))).line l =
        s.line l := by rw [applyRobots_eq]; rfl
    rw [same]
    exact Line.tidy_iff.2 ⟨nodup_filter (h l).1 _, dropReads_ok (Line.tidy_iff.1 (h.tidy l)).2.1
      (fun r => decide (first ≤ r.val) && decide (r.val < first + count)), (h l).2.2.2⟩

theorem serveLoad (h : ListsOk s) (table : Byte) (first count : Half) (records : List Byte) :
    ListsOk (serveLoad s table first count records).state := by
  unfold Machine.serveLoad
  split
  · exact h
  · split
    · exact h
    · split
      · exact h
      · unfold loadTable
        split
        · exact h.loadRobots _ _ _
        · exact h
        · exact h
        · rcases loadZones_state s first.toNat count.toNat (recordsOf records _ count.toNat) with e | ⟨ms, sel, -, e⟩ <;> rw [e]
          · exact h
          · exact h.of_lines fun l => settleWith_line ..
        · intro l
          rw [loadTimings_line]
          exact h l
        · unfold loadEpochRecord
          split <;> exact h

theorem abortRequest (h : ListsOk s) : ListsOk (abortRequest s).state := by
  have aborted (w : Wave) : ListsOk (Machine.abortRequest.aborted s w).state := by
    rw [aborted_state]; exact h.abortWave.doneTest
  unfold Machine.abortRequest
  split
  · exact h
  · split
    · exact h
    · exact h
    all_goals exact aborted _

theorem resetNamed (h : ListsOk s) (mask : Byte) (l : LineNo) : ListsOk (resetNamed s mask l).1 := by
  unfold Machine.resetNamed
  split
  · exact h.resetLine
  · exact h

theorem perform (h : ListsOk s) (q : Request) : ListsOk (perform s q).state := by
  cases q with
  | move r hub elbow p =>
    refine h.withMover _ _ fun b q => ?_
    split
    · exact h
    · exact h.placeRecord _
  | retrace r p =>
    refine h.withMover _ _ fun b q => ?_
    split
    · exact h
    · exact h.placeRecord _
  | home r p => exact h.withMover _ _ fun _ _ => h.placeRecord _
  | cancel r =>
    show ListsOk (cancelRequest s r).state
    unfold cancelRequest
    split
    · exact h.withdraw r
    · split
      · exact h.withdraw r
      · exact h
  | halt r => exact h.withReachable r (ite ((h.stopMember r _).offerHalt r) (h.offerHalt r))
  | refresh r => exact h.withReachable r (h.offerRead r rfl)
  | report | status | reset | mask => exact h
  | load table first count records => exact h.serveLoad _ _ _ _
  | read table first count =>
    show ListsOk (serveRead s table first count).state
    rw [Serves.serveRead_state]; exact h
  | flags first last op mask =>
    show ListsOk (flagsRequest s first last op mask).state
    unfold flagsRequest
    split
    · exact h
    · split <;> exact h
  | commit lead chainCount chainLead =>
    show ListsOk (commitRequest s lead chainCount chainLead).state
    unfold commitRequest
    split
    · exact h
    · split
      · exact h
      · split
        · exact h
        · exact commitCandidates (s := { s with openWave := [], deferred := [] }) h _ _
  | abort => exact h.abortRequest
  | take =>
    show ListsOk (takeRequest s).state
    unfold takeRequest
    split <;> exact h
  | lineReset mask => exact (((h.resetNamed mask 0).resetNamed mask 1).resetNamed mask 2).resetNamed mask 3

/-! ### The port -/

theorem serve (h : ListsOk s) (f : Frame) : ListsOk (serve s f).state := by
  unfold Machine.serve
  split
  · exact h
  · exact h.perform _

theorem dispatchNext (h : ListsOk s) : ListsOk (dispatchNext s) := by
  unfold Machine.dispatchNext
  split
  · rename_i f rest _ _
    exact serve (s := { s with trunk := { s.trunk with queue := rest } }) h f
  · exact h
  · exact h

theorem acceptFrame (h : ListsOk s) (f : Frame) : ListsOk (acceptFrame s f) := by
  refine dispatchNext ?_
  unfold offerFrame
  exact ite h h

theorem submit (h : ListsOk s) (f : Frame) : ListsOk (submit s f) := by
  have skipped : ListsOk (skipFrame s) := h
  unfold Machine.submit
  split
  · exact h
  · exact ite skipped (h.acceptFrame f)
  · exact ite skipped (h.acceptFrame f)

theorem frameComplete (h : ListsOk s) (f : Frame) (check : Half) : ListsOk (frameComplete s f check) := by
  have skipped : ListsOk (skipFrame s) := h
  unfold Machine.frameComplete
  split
  · exact h
  · exact h
  · exact ite skipped (ite (h.acceptFrame f) h)

/-- Controller reset empties the lists of every line (R141). -/
theorem controllerReset (s : State) : ListsOk (controllerReset s) := fun l => by
  rw [controllerReset_line]
  exact Line.Tidy.emptied ⟨rfl, rfl, rfl⟩

theorem replyEnds (h : ListsOk s) : ListsOk (replyEnds s) := by
  unfold Machine.replyEnds
  split
  · exact h
  · exact dispatchNext (of_lines (ite (controllerReset s) h) fun _ => rfl)

/-- The events of the port that carry out no request. -/
theorem portEvent (h : ListsOk s) :
    (∀ n, ListsOk (lengthOversize s n)) ∧ ListsOk (gapAbandon s) ∧ ListsOk (skipQuiet s) ∧ ListsOk (frameBegins s) := by
  have skipped : ListsOk (skipFrame s) := h
  refine ⟨fun n => ?_, ?_, ?_, ?_⟩
  · unfold lengthOversize
    split
    · exact h
    · exact h
    · exact ite skipped h
  · unfold gapAbandon
    split <;> exact h
  · unfold skipQuiet
    split <;> exact h
  · unfold frameBegins
    split <;> exact h

/-! ### The step -/

theorem takeMark (h : ListsOk s) (n : Nat) : ListsOk (takeMark s n) :=
  waveMark (s := { s with epoch := { s.epoch.restart n with counter := s.epoch.counter + 1 } }) h

theorem takePulse (h : ListsOk s) : ListsOk (takePulse s) := by
  have slipped : ListsOk (if (pulseResult s.epoch s.now).lock = .slipped then
      State.raise { s with epoch := { s.epoch with
        offset := s.epoch.storedOffset (pulseResult s.epoch s.now).offset
        lock := (pulseResult s.epoch s.now).lock, mode := (pulseResult s.epoch s.now).mode } } .epochSlip s.activeWaveNumber
      else { s with epoch := { s.epoch with
        offset := s.epoch.storedOffset (pulseResult s.epoch s.now).offset
        lock := (pulseResult s.epoch s.now).lock, mode := (pulseResult s.epoch s.now).mode } }) := ite h h
  unfold Machine.takePulse
  dsimp only
  split
  · exact slipped
  · exact slipped.takeMark _
  · exact slipped

theorem reset : ListsOk State.reset := fun l => by
  rw [reset_line]
  exact Line.Tidy.emptied ⟨rfl, rfl, rfl⟩

theorem exec (h : ListsOk s) (c : Instr) (ht : exec c s = .next t) : ListsOk t := by
  obtain ⟨oversize, gap, quiet, begins⟩ := h.portEvent
  have timed (t : Time) : ListsOk (s.clock t) := h
  cases c <;> obtain rfl := Host.Outcome.next.inj ht
  case trunkFrameComplete => exact ite h (h.frameComplete _ _)
  case trunkLengthOversize n => exact ite h (oversize n)
  case trunkGapAbandon => exact ite h gap
  case trunkSkipQuiet => exact ite h quiet
  case replySent => exact ite h h.replyEnds
  case resetNAssert => exact ite h h
  case powerOnReset => exact reset
  case startCharacter => exact ite h begins
  case epochMark => exact ite h (takeMark (timed _) _)
  case epochPulse => exact ite h (timed _).takePulse
  case lineArbiterChoose => exact ite h (timed _).arbiter
  case lineFrameSent => exact ite h (timed _).frameSent
  case broadcastSent => exact ite h (timed _).broadcastEnds
  case nextFrameSend | endFrameSend => exact ite h ((timed _).nextFrame _)
  case endSent => exact ite h (timed _).endEnds
  case answerReady | answerNotReady | answerAccept | answerRetry | answerRefuse | answerPoll | answerStatus |
      answerGarbled =>
    exact ite h ((timed _).receiveAnswer _)
  case answerWaitSilence => exact ite h (timed _).waitSilence
  case answerCharGap | readAnswerDeadline => exact ite h ((timed _).cutShort _)
  case strayCharacter => exact ite h (timed _).touch
  case answerBegun => exact ite h (timed _).beginAnswer
  case overrunDeadline => exact ite h ((timed _).overrunExpired _)
  all_goals exact ite h (h.submit _)

theorem step (h : ListsOk s) (ht : step s = .next t) : ListsOk t := by
  unfold Machine.step at ht
  split at ht
  · obtain rfl := Host.Outcome.next.inj ht
    exact h
  · rename_i c rest _
    exact exec (s := { s with pending := rest }) h c ht

end ListsOk

/-- Settles O9: the lists through every operation that offers or removes work, and the wave through the parts of a step. -/
theorem stepsKeepListsUniqueAndWavesOpen : Obligations.StepsKeepListsUniqueAndWavesOpen :=
  fun _ _ ht => ⟨fun h => h.step ht, waveOpen_kept.step ht⟩

end Sys2Proof.Machine
end

section
/-!
O18: CANCEL.
-/

namespace Sys2Proof.Machine

variable {s : State} {r : RobotNo}

theorem exec_cancel (ready : Ready s) {t : State} {status : Status} {payload : List Byte}
    (served : cancelRequest s.hunting r = ⟨t.hunting, status, payload⟩) :
    exec (.cancel (halfOf r.val)) s = .next (t.answer (halfOf r.val) 4 status payload) :=
  exec_answer (f := bareFrame (halfOf r.val) 4) rfl ready (by show 0 ≤ 512; decide)
    (by rw [serve, parse_cancel]; exact served)

/-- A robot with a move record has it withdrawn, whatever the receiving half does. -/
theorem withdraw_hunting (holds : s.holdsMove r = true) : s.hunting.withdraw r = (s.withdrawn r).hunting :=
  if_pos (c := s.hunting.holdsMove r = true) holds

/-- The one element of a list that satisfies a test is the one found. -/
theorem find?_only {α : Type} {p : α → Bool} {xs : List α} {x : α} (hx : x ∈ xs) (px : p x = true)
    (only : ∀ y ∈ xs, p y = true → y = x) : xs.find? p = some x := by
  cases found : xs.find? p with
  | none => exact absurd px (List.find?_eq_none.1 found x hx)
  | some y => rw [only y (List.mem_of_find?_eq_some found) (List.find?_some found)]

/-- Settles O18: the record found in one of the two lists, or in neither. -/
theorem cancelOutcome : Obligations.CancelOutcome := by
  refine fun s r ready => ⟨fun m hm robot only => exec_cancel ready ?_, fun x hx robot only noOpen => exec_cancel ready ?_,
    fun noOpen noDeferred => exec_cancel (t := s) ready ?_⟩
  · have found : s.hunting.openWave.find? (fun m => decide (m.robot = r)) = some m :=
      find?_only hm (decide_eq_true robot) fun y hy h => only y hy (of_decide_eq_true h)
    have holds : s.holdsMove r = true :=
      Bool.or_eq_true_iff.2 (.inl (List.any_eq_true.2 ⟨m, hm, decide_eq_true robot⟩))
    rw [cancelRequest, found, ← withdraw_hunting holds]
  · have none : s.hunting.openWave.find? (fun m => decide (m.robot = r)) = none :=
      List.find?_eq_none.2 fun m hm => by simpa using noOpen m hm
    have found : s.hunting.deferred.find? (fun d => decide (d.record.robot = r)) = some x :=
      find?_only hx (decide_eq_true robot) fun y hy h => only y hy (of_decide_eq_true h)
    have holds : s.holdsMove r = true :=
      Bool.or_eq_true_iff.2 (.inr (List.any_eq_true.2 ⟨x, hx, decide_eq_true robot⟩))
    rw [cancelRequest, none]
    dsimp only
    rw [found, ← withdraw_hunting holds]
  · have none : s.hunting.openWave.find? (fun m => decide (m.robot = r)) = none :=
      List.find?_eq_none.2 fun m hm => by simpa using noOpen m hm
    have missing : s.hunting.deferred.find? (fun d => decide (d.record.robot = r)) = .none :=
      List.find?_eq_none.2 fun d hd => by simpa using noDeferred d hd
    rw [cancelRequest, none]
    dsimp only
    rw [missing]
    rfl

end Sys2Proof.Machine
end

section
/-!
SUPPORT. The arming test after a decision; a decision of a member that has been changed before; the last failure of a short frame with
the lists it leaves.
-/

namespace Sys2Proof.Machine

/-! ### The arming test (R79) -/

section

variable {s u : State} {r : RobotNo} {m : Member} {o : Ending} {why : Reason}

theorem unsettled_iff (d : Delivery) : d.unsettled = false ↔ d.isSettled := by
  cases d <;> simp [Delivery.unsettled, Delivery.isSettled]

/-- The arming test leaves a wave with an unsettled delivery, and makes an ARMING wave without one ARMED (R79). -/
theorem armTest_cases (u : State) : armTest u = u ∧ u.armingTested ∨
    ∃ w, u.wave = some w ∧ w.state = .arming ∧ (∀ q ∈ w.members, q.delivery.isSettled) ∧
      armTest u = { u with wave := some { w with state := .armed } } := by
  unfold armTest
  split
  · rename_i none
    exact .inl ⟨rfl, fun w hw => by rw [none] at hw; cases hw⟩
  · rename_i w hw
    split
    · rename_i armed
      refine .inr ⟨w, hw, armed.1, fun q hq => ?_, by rw [State.modWave, hw]⟩
      exact (unsettled_iff _).1 (Bool.eq_false_iff.2 (List.any_eq_false.1 armed.2 q hq))
    · rename_i stays
      refine .inl ⟨rfl, fun v hv arming => ?_⟩
      obtain rfl := Option.some.inj (hw.symm.trans hv)
      obtain ⟨q, hq, unsettled⟩ := List.any_eq_true.1 (Bool.eq_true_of_not_eq_false fun k => stays ⟨arming, k⟩)
      exact ⟨q, hq, fun settled => by rw [(unsettled_iff _).2 settled] at unsettled; cases unsettled⟩

/-- The arming test writes the wave record alone. -/
theorem armTest_eq (u : State) : armTest u = { u with wave := (armTest u).wave } := by
  rcases armTest_cases u with ⟨e, -⟩ | ⟨w, -, -, -, e⟩ <;> rw [e]

@[simp] theorem armTest_robots (u : State) : (armTest u).robots = u.robots := by rw [armTest_eq]
@[simp] theorem armTest_zones (u : State) : (armTest u).zones = u.zones := by rw [armTest_eq]
@[simp] theorem armTest_events (u : State) : (armTest u).events = u.events := by rw [armTest_eq]
@[simp] theorem armTest_robot (u : State) (q : RobotNo) : (armTest u).robot q = u.robot q := robot_congr (armTest_robots u) q
@[simp] theorem armTest_zone (u : State) (z : ZoneId) : (armTest u).zone z = u.zone z := zone_congr (armTest_zones u) z
@[simp] theorem armTest_line (u : State) (l : LineNo) : (armTest u).line l = u.line l := by rw [armTest_eq]; rfl

@[simp] theorem armTest_members (u : State) : (armTest u).members = u.members := by
  rcases armTest_cases u with ⟨e, -⟩ | ⟨w, hw, -, -, e⟩ <;> rw [e]
  rw [members_of_wave hw]; rfl

@[simp] theorem armTest_member? (u : State) (q : RobotNo) : (armTest u).member? q = u.member? q := by
  simp only [member?_eq_find, armTest_members]

/-- After the arming test an ARMING wave has an unsettled delivery. -/
theorem armTest_tested (u : State) : (armTest u).armingTested := by
  rcases armTest_cases u with ⟨e, tested⟩ | ⟨w, hw, -, -, e⟩ <;> rw [e]
  · exact tested
  · intro v hv arming
    obtain rfl := Option.some.inj hv
    cases arming

/-- The wave record after the arming test. -/
theorem armTest_wave {w : Wave} (hw : u.wave = some w) : ∃ x : WaveState,
    (armTest u).wave = some { w with state := x } ∧
      (x = w.state ∨ w.state = .arming ∧ x = .armed ∧ ∀ q ∈ w.members, q.delivery.isSettled) := by
  rcases armTest_cases u with ⟨e, -⟩ | ⟨v, hv, arming, settled, e⟩ <;> rw [e]
  · exact ⟨w.state, hw, .inl rfl⟩
  · obtain rfl := Option.some.inj (hv.symm.trans hw)
    exact ⟨.armed, rfl, .inr ⟨arming, rfl, settled⟩⟩

theorem Decides.armTest (h : Decides s u r m) : Decides s (armTest u) r m where
  member := by rw [armTest_members]; exact h.member
  decided := by rw [armTest_member?]; exact h.decided
  kept := by rw [armTest_members]; exact h.kept
  wave w hw distinct := by
    obtain ⟨x, wave, state⟩ := h.wave w hw distinct
    obtain ⟨y, armed, state'⟩ := armTest_wave wave
    refine ⟨y, armed, ?_⟩
    rw [armTest_members]
    rcases state' with rfl | ⟨arming, rfl, settled⟩
    · exact state
    · rcases state with rfl | ⟨-, rfl, -⟩
      · exact .inr ⟨arming, rfl, by rw [members_of_wave wave]; exact settled⟩
      · cases arming
  cycle := by rw [armTest_line]; exact h.cycle
  others q hq := by rw [armTest_robot]; exact h.others q hq
  moves := by rw [armTest_eq]; exact h.moves

theorem EndsUncertain.armTest (h : EndsUncertain s u r m o why) : EndsUncertain s (armTest u) r m o why where
  toDecides := h.toDecides.armTest
  robot := by rw [armTest_robot]; exact h.robot
  zones z := by rw [armTest_zone]; exact h.zones z
  named z := by simp only [armTest_zone, armTest_robot]; exact h.named z

theorem EndsAtRest.armTest (h : EndsAtRest s u r m o why) : EndsAtRest s (armTest u) r m o why where
  toDecides := h.toDecides.armTest
  robot := by rw [armTest_robot]; exact h.robot
  zones z := by rw [armTest_zone]; exact h.zones z
  named := by simp only [armTest_zone, armTest_robot]; exact h.named

/-! ### A member changed before it is decided -/

theorem Decides.of_modMember {f : Member → Member} (hf : ∀ q, (f q).robot = q.robot) (h : Decides (s.modMember r f) u r m) :
    Decides s u r m where
  member := h.member
  decided := h.decided
  kept q hq away := h.kept q (by
    rw [members_modMember]
    exact List.mem_map.2 ⟨q, hq, if_neg fun k => away k.1⟩) away
  wave w hw distinct := by
    have changed : (s.modMember r f).wave = some { w with
        members := w.members.map fun q => if q.robot = r ∧ q.undecided = true then f q else q } := by
      rw [State.modMember, hw]
    obtain ⟨x, wave, state⟩ := h.wave _ changed (by rw [changed_robot hf]; exact distinct)
    refine ⟨x, wave.trans ?_, state⟩
    rw [List.map_map]
    refine congrArg some (congrArg (fun ms => { w with state := x, members := ms }) (List.map_congr_left fun q _ => ?_))
    by_cases here : q.robot = r
    · simp only [Function.comp_apply, here, true_and]
      split <;> simp [hf, here]
    · simp [here]
  cycle := by simpa only [robot_modMember] using h.cycle
  others q hq := by rw [h.others q hq, robot_modMember]
  moves := by simpa only [State.modMember_openWave, State.modMember_deferred, State.modMember_waveCounter,
    State.modMember_epoch] using h.moves

theorem EndsUncertain.of_modMember {f : Member → Member} (hf : ∀ q, (f q).robot = q.robot)
    (h : EndsUncertain (s.modMember r f) u r m o why) : EndsUncertain s u r m o why where
  toDecides := h.toDecides.of_modMember hf
  robot := by simpa only [robot_modMember] using h.robot
  zones z := by simpa only [zone_modMember] using h.zones z
  named z := by simpa only [zone_modMember] using h.named z

theorem EndsAtRest.of_modMember {f : Member → Member} (hf : ∀ q, (f q).robot = q.robot)
    (h : EndsAtRest (s.modMember r f) u r m o why) : EndsAtRest s u r m o why where
  toDecides := h.toDecides.of_modMember hf
  robot := by simpa only [robot_modMember] using h.robot
  zones z := by simpa only [zone_modMember] using h.zones z
  named := by simpa only [zone_modMember, robot_modMember] using h.named

/-- A robot's member after a change that leaves it undecided. -/
theorem member?_changed (hm : s.member? r = some m) {f : Member → Member}
    (hf : ∀ m, (f m).robot = m.robot ∧ (f m).outcome = m.outcome) : (s.modMember r f).member? r = some (f m) := by
  rw [member?_modMember_same s r hf, hm]
  rfl

theorem member?_setDelivery (hm : s.member? r = some m) (d : Delivery) :
    (s.setDelivery r d).member? r = some { m with delivery := d } :=
  member?_changed hm (f := fun m => { m with delivery := d }) fun _ => ⟨rfl, rfl⟩

/-- A member CLOSED and then decided is written CLOSED (R74, R78). -/
theorem decided_closed (m : Member) (o : Ending) (why : Reason) :
    ({ m with delivery := .closed } : Member).decided o why = { m.decided o why with delivery := .closed } := by
  simp [Member.decided]

theorem closed_atRest (hm : s.member? r = some m) (ho : o ≠ .none) :
    EndsAtRest s ((s.setDelivery r .closed).concludeAtRest r o why) r { m.decided o why with delivery := .closed } o why := by
  rw [← decided_closed]
  exact (concludeAtRest_ends (member?_setDelivery hm .closed) ho).of_modMember (f := fun m => { m with delivery := .closed })
    fun _ => rfl

theorem closed_lost (hm : s.member? r = some m) :
    EndsUncertain s ((s.setDelivery r .closed).concludeLost r why) r { m with delivery := .closed } .lost why ∧
      ((s.setDelivery r .closed).concludeLost r why).events.get .lost = (s.events.get .lost).raised (halfOf r.val) := by
  obtain ⟨ends, event⟩ := concludeLost_ends (why := why) (member?_setDelivery hm .closed)
  refine ⟨ends.of_modMember (f := fun m => { m with delivery := .closed }) fun _ => rfl, event.trans ?_⟩
  rw [State.setDelivery, State.modMember_events]

theorem concludeAtRest_engine (l : LineNo) : ((s.concludeAtRest r o why).line l).state = (s.line l).state ∧
    ((s.concludeAtRest r o why).line l).txn = (s.line l).txn ∧
    ((s.concludeAtRest r o why).line l).urgent = (s.line l).urgent ∧
    ((s.concludeAtRest r o why).line l).normal = (s.line l).normal := by
  rw [concludeAtRest_line]; exact conclude_engine l

theorem concludeUncertain_engine (l : LineNo) : ((s.concludeUncertain r o why).line l).state = (s.line l).state ∧
    ((s.concludeUncertain r o why).line l).txn = (s.line l).txn := by
  rw [concludeUncertain_line]
  exact ⟨(conclude_engine l).1, (conclude_engine l).2.1⟩

/-- A member that waits with a settled delivery keeps its wave from being DONE, and the arming test is made. -/
theorem doneTest_of_member (hm : u.member? r = some m) : doneTest u = u := doneTest_open (waveOpen_of_member hm)

@[simp] theorem line_setDelivery (d : Delivery) (l : LineNo) : (s.setDelivery r d).line l = s.line l := line_modMember ..

theorem modMember_modLine (s : State) (r : RobotNo) (f : Member → Member) (l : LineNo) (g : Line → Line) :
    (s.modLine l g).modMember r f = (s.modMember r f).modLine l g := by
  unfold State.modMember
  rw [State.modLine_wave]
  split <;> rfl

end

/-! ### The lists of a line whose transaction has ended -/

/-- The lists of every line are those before. -/
def SameLists (s u : State) : Prop := ∀ k, (u.line k).urgent = (s.line k).urgent ∧ (u.line k).normal = (s.line k).normal ∧
  (u.line k).cycle = (s.line k).cycle

section

variable {s : State} {l : LineNo} {t : Time} {x : Txn} {f : FrameKind} {since : Nat}

theorem sameLists_modLine (s : State) (l : LineNo) {g : Line → Line}
    (hg : ∀ e, (g e).urgent = e.urgent ∧ (g e).normal = e.normal ∧ (g e).cycle = e.cycle) : SameLists s (s.modLine l g) := by
  intro k
  rw [line_modLine]
  split
  · exact hg _
  · exact ⟨rfl, rfl, rfl⟩

theorem freed_answeredAt (s : State) (l : LineNo) (t : Time) : Freed s (s.answeredAt l t) l where
  toAlike := alike_answeredAt s l t
  events := rfl
  state := by rw [State.answeredAt, line_modLine, if_pos rfl]
  txn := by rw [State.answeredAt, line_modLine, if_pos rfl]

/-- The other lines keep the states of their engines. -/
def OtherStates (s u : State) (l : LineNo) : Prop := ∀ k, k ≠ l → (u.line k).state = (s.line k).state

theorem otherStates_modLine (s : State) (l : LineNo) (g : Line → Line) : OtherStates s (s.modLine l g) l :=
  fun k hk => by rw [line_modLine, if_neg (Ne.symm hk)]

/-- A line that is not DOWN is not DOWN after a transaction has ended. -/
theorem OtherStates.up {u : State} (others : OtherStates s u l) (freed : Freed s u l) {k : LineNo}
    (up : (s.line k).state ≠ .down) : (u.line k).state ≠ .down := by
  by_cases hk : k = l
  · rw [hk, freed.state]; nofun
  · rwa [others k hk]

/-- What the last failure of a short frame leaves on its line before it is judged (R128): its lists as they were. -/
theorem exec_failsLast_lists {c : Instr} (h : FailsLast s l t x f since c) : ∃ u, Freed s u l ∧ SameLists s u ∧
    OtherStates s u l ∧ exec c s = .next (judgeEnd u l x.kind x.stale (.failed false)) := by
  have fail {u : State} (g : Line → Line) (hg : ∀ e, (g e).urgent = e.urgent ∧ (g e).normal = e.normal ∧ (g e).cycle = e.cycle)
      (hu : u = (s.clock t).modLine l g) (run : exec c s = .next (attemptFailed u l x f 0)) :
      ∃ u, Freed s u l ∧ SameLists s u ∧ OtherStates s u l ∧
        exec c s = .next (judgeEnd u l x.kind x.stale (.failed false)) := by
    refine ⟨((s.clock t).modLine l g).freeEngine l, freed_modLine s l t g, ?_, ?_, ?_⟩
    · rw [State.freeEngine, modLine_modLine]
      exact sameLists_modLine (s.clock t) l hg
    · rw [State.freeEngine, modLine_modLine]
      exact otherStates_modLine (s.clock t) l _
    · rw [run, hu, attemptFailed_last h.short h.last]; rfl
  -- A garbled answer is counted, and the silence count becomes 0 (R133, R138).
  have garbled (g : Line → Line) (hg : ∀ e, (g e).urgent = e.urgent ∧ (g e).normal = e.normal ∧ (g e).cycle = e.cycle)
      (run : exec c s = .next (garbledAnswer ((s.clock t).modLine l g) l x f)) :=
    fail (fun e => { g e with
      counters := { (g e).counters with garbled := countUp (g e).counters.garbled }, silence := 0 }) (fun e => hg e)
      (by rw [State.countGarbled, State.heard, modLine_modLine, modLine_modLine]) run
  rcases h.cause with ⟨bytes, rfl, unfit, begun⟩ | ⟨rfl, receiving⟩ | ⟨rfl, waiting, silent, up⟩
  · refine garbled (fun e => { e with lastChar := (s.clock t).now }) (fun _ => ⟨rfl, rfl, rfl⟩) ((running_run h.running fun s =>
      receiveAnswer (s.clock t) l (readAnswer (s.line l).answerDrop bytes)).trans (congrArg _ ?_))
    have drop : (s.line l).answerDrop = x.drop := by rw [Line.answerDrop, h.clear, h.txn]
    unfold receiveAnswer
    dsimp only
    rw [show (s.clock t).line l = s.line l from rfl, drop, h.clear, h.txn]
    dsimp only
    rw [answered?_of_phase h.phase begun]
    dsimp only [receiveAnswer.judgeAnswer]
    cases ha : readAnswer x.drop bytes with
    | none => rfl
    | some a => exact if_neg (by rw [answerValid, unfit a ha, Bool.false_and, Bool.false_and]; decide)
  · refine garbled (fun e => { e with lastChar := max e.lastChar ((s.clock t).now - Config.charGap) }) (fun _ => ⟨rfl, rfl, rfl⟩)
      ((running_run h.running fun s => cutShort (s.clock t) l false).trans (congrArg _ ?_))
    unfold cutShort
    dsimp only
    rw [show (s.clock t).line l = s.line l from rfl, h.clear, h.txn]
    dsimp only
    rw [receiving]
    rfl
  · refine fail (u := (s.clock t).countSilence l) (fun e =>
        { e with silence := e.silence + 1, counters := { e.counters with timeouts := countUp e.counters.timeouts } })
      (fun _ => ⟨rfl, rfl, rfl⟩) rfl
      ((running_run h.running fun s => waitSilence (s.clock t) l).trans (congrArg _ ?_))
    unfold waitSilence
    rw [show (s.clock t).line l = s.line l from rfl, h.txn]
    dsimp only
    rw [waiting]
    dsimp only
    rw [if_pos silent, silentWait]
    refine if_neg ?_
    rw [State.countSilence, line_modLine, if_pos rfl]
    exact Nat.not_le.2 up

end

end Sys2Proof.Machine
end

section
/-!
O48: the end of a CLEAR.
-/

namespace Sys2Proof.Machine

variable {s u v : State} {l : LineNo} {t : Time} {x : Txn} {f : FrameKind} {since : Nat} {r : RobotNo} {m : Member}

/-- The end of a CLEAR for a CLEARING member is judged by R78. -/
theorem judgeEnd_clear (hm : u.member? r = some m) (clearing : m.delivery = .clearing) (en : TxnEnd) :
    judgeEnd u l (.clear r) false en = doneTest (armTest (judgeClear u m en)) := by
  simp only [judgeEnd, endClear, hm, if_pos clearing]
  rfl

/-- The end of a read-back's own CLEAR is judged by R108. -/
theorem judgeEnd_readBackClear (hm : u.member? r = some m) (other : m.delivery ≠ .clearing) (stop : m.stop = .clear)
    (en : TxnEnd) : judgeEnd u l (.clear r) false en = doneTest (armTest (judgeReadBackClear u m en)) := by
  simp only [judgeEnd, endClear, hm, if_neg other, if_pos stop]
  rfl

/-- The engine of a line is IDLE with no transaction. -/
def State.engineFree (s : State) (l : LineNo) : Prop := (s.line l).state = .idle ∧ (s.line l).txn = none

theorem engineFree_armTest (freed : Freed s u l) (state : (v.line l).state = (u.line l).state)
    (txn : (v.line l).txn = (u.line l).txn) : (armTest v).engineFree l := by
  rw [State.engineFree, armTest_line, state, txn]
  exact ⟨freed.state, freed.txn⟩

/-- A member whose robot returns to its rest state, and the arming test. -/
theorem rests_of_freed {w : Member} {o : Ending} {why : Reason} (freed : Freed s u l)
    (ends : EndsAtRest u (v.concludeAtRest r o why) r w o why) (same : v.line l = u.line l) :
    (armTest (v.concludeAtRest r o why)).engineFree l ∧ (armTest (v.concludeAtRest r o why)).armingTested ∧
      EndsAtRest s (armTest (v.concludeAtRest r o why)) r w o why := by
  obtain ⟨state, txn, -⟩ := concludeAtRest_engine (s := v) (r := r) (o := o) (why := why) l
  rw [same] at state txn
  exact ⟨engineFree_armTest freed state txn, armTest_tested _, (ends.of_alike freed.toAlike).armTest⟩

/-- A member that is LOST, and the arming test. -/
theorem lost_of_freed (freed : Freed s u l) {why : Reason}
    (ends : EndsUncertain u (v.concludeLost r why) r m .lost why ∧
      (v.concludeLost r why).events.get .lost = (u.events.get .lost).raised (halfOf r.val)) (same : v.line l = u.line l) :
    (armTest (v.concludeLost r why)).engineFree l ∧ (armTest (v.concludeLost r why)).armingTested ∧
      EndsUncertain s (armTest (v.concludeLost r why)) r m .lost why ∧
      (armTest (v.concludeLost r why)).events.get .lost = (s.events.get .lost).raised (halfOf r.val) := by
  obtain ⟨state, txn⟩ := concludeLost_engine (s := v) (r := r) (why := why) l
  rw [same] at state txn
  refine ⟨engineFree_armTest freed state txn, armTest_tested _, (ends.1.of_alike freed.toAlike).armTest, ?_⟩
  rw [armTest_events, ends.2, freed.events]

/-- An offer of a HALT single leaves every engine. -/
theorem offerHalt_engine (s : State) (r : RobotNo) (k : LineNo) :
    ((s.offerHalt r).line k).state = (s.line k).state ∧ ((s.offerHalt r).line k).txn = (s.line k).txn := by
  rw [State.offerHalt, line_modLine]
  split
  · split <;> exact ⟨rfl, rfl⟩
  · exact ⟨rfl, rfl⟩

/-- A CLEAR refused begins the read-back: its member waits, settled, for a HALT single (R78). -/
theorem judgeClear_refused (freed : Freed s u l) (lists : SameLists s u) (hm : u.member? r = some m) (fault : Byte) :
    let v := armTest (judgeClear u m (.refused fault))
    doneTest v = v ∧ v.engineFree l ∧ v.robot r = { s.robot r with fault := fault } ∧ v.armingTested ∧
      v.member? r = some { m with delivery := .accepted, stop := .halt 1 } ∧
      (∀ q ∈ s.members, q.robot ≠ r → q ∈ v.members) ∧
      ((u.line (s.robot r).static.line).state ≠ .down →
        (v.line (s.robot r).static.line).urgent = offerHaltTo (s.line (s.robot r).static.line).urgent r) := by
  have robot := (member?_some hm).2.2
  have judged : judgeClear u m (.refused fault) = ((u.setFaultCode r fault).modMember r fun m =>
      { m with delivery := .accepted, stop := .halt 1 }).offerHalt r := by subst robot; rfl
  have member : ((u.setFaultCode r fault).modMember r fun m =>
      { m with delivery := .accepted, stop := .halt 1 }).member? r = some { m with delivery := .accepted, stop := .halt 1 } :=
    member?_changed (s := u.setFaultCode r fault) hm
      (f := fun m => { m with delivery := .accepted, stop := .halt 1 }) fun _ => ⟨rfl, rfl⟩
  have here : ((u.setFaultCode r fault).robot r).static.line = (s.robot r).static.line := by
    rw [State.setFaultCode, robot_modRobot, if_pos rfl, freed.robot]
  have offered := offerHalt_waits (b := u.setFaultCode r fault) (r := r) fun m => { m with delivery := .accepted, stop := .halt 1 }
  rw [here] at offered
  have engine (k : LineNo) := offerHalt_engine ((u.setFaultCode r fault).modMember r fun m =>
    { m with delivery := .accepted, stop := .halt 1 }) r k
  simp only [line_modMember] at engine
  dsimp only
  rw [judged]
  refine ⟨doneTest_of_member (m := { m with delivery := .accepted, stop := .halt 1 }) ((armTest_member? _ r).trans member),
    engineFree_armTest freed (engine l).1 (engine l).2, ?_, armTest_tested _, (armTest_member? _ r).trans member,
    fun q hq away => ?_, fun up => ?_⟩
  · rw [armTest_robot]
    show (((u.setFaultCode r fault).modMember r _).robot r) = _
    rw [robot_modMember, State.setFaultCode, robot_modRobot, if_pos rfl, freed.robot]
  · rw [armTest_members]
    show q ∈ ((u.setFaultCode r fault).modMember r _).members
    rw [members_modMember]
    exact List.mem_map.2 ⟨q, by rwa [← freed.members] at hq, if_neg fun k => away k.1⟩
  · rw [armTest_line, offered (by rw [(engine _).1]; exact up)]
    exact congrArg (offerHaltTo · r) (lists _).1

/-- Settles O48: a CLEARING member's three ends, then those of a read-back's own CLEAR. -/
theorem clearEnds : Obligations.ClearEnds := by
  intro s l t x since r m kind fresh hm line free rests lost why
  have robot := (member?_some hm).2.2
  have accepted (an : Answering s l t x .clear since) := exec_answerAccept an rfl nofun
  have refused (an : Answering s l t x .clear since) (fault : Byte) := exec_answerRefuse (fault := fault) an rfl nofun
  rw [kind, fresh] at accepted refused
  have freed := freed_answeredAt s l t
  have here := (freed.member? r).trans hm
  refine ⟨fun clearing => ⟨fun an => ?_, fun an fault => ?_, fun c fails => ?_⟩,
    fun other stop => ⟨fun an => ⟨?_, fun fault => ?_⟩, fun c fails => ?_⟩⟩
  · have run := accepted an
    rw [judgeEnd_clear here clearing] at run
    refine endsIn_doneTest run ?_
    subst robot
    exact rests_of_freed freed (closed_atRest here (by decide)) (line_setDelivery _ _)
  · have run := refused an fault
    rw [judgeEnd_clear here clearing] at run
    obtain ⟨stays, engine, record, tested, member, kept, urgent⟩ :=
      judgeClear_refused freed (answeredAt_lists s l t) here fault
    rw [stays] at run
    refine ⟨_, run, engine, record, tested, member, kept, fun up => urgent ?_⟩
    rw [State.answeredAt, line_modLine]
    split
    · nofun
    · exact up
  · obtain ⟨u, freed, run⟩ := exec_failsLast fails
    rw [kind, fresh, judgeEnd_clear ((freed.member? r).trans hm) clearing] at run
    refine endsIn_doneTest run ?_
    subst robot
    exact lost_of_freed freed (closed_lost ((freed.member? _).trans hm)) (line_setDelivery _ _)
  · have run := accepted an
    rw [judgeEnd_readBackClear here other stop] at run
    refine endsIn_doneTest run ?_
    subst robot
    exact rests_of_freed freed (concludeAtRest_ends here (by decide)) rfl
  · have run := refused an fault
    rw [judgeEnd_readBackClear here other stop] at run
    refine endsIn_doneTest run ?_
    subst robot
    have ends := (concludeUncertain_ends (s := (s.answeredAt l t).setFaultCode m.robot fault) (why := .none) here
      (o := .haltedUnknown) (by decide)).of_alike (freed.toAlike.modRobot m.robot _)
    obtain ⟨state, txn⟩ := concludeUncertain_engine (s := (s.answeredAt l t).setFaultCode m.robot fault) (r := m.robot)
      (o := .haltedUnknown) (why := .none) l
    exact ⟨engineFree_armTest freed state txn, armTest_tested _, ends.armTest⟩
  · obtain ⟨u, freed, run⟩ := exec_failsLast fails
    rw [kind, fresh, judgeEnd_readBackClear ((freed.member? r).trans hm) other stop] at run
    refine endsIn_doneTest run ?_
    subst robot
    exact lost_of_freed freed (concludeLost_ends ((freed.member? _).trans hm)) rfl

end Sys2Proof.Machine
end

section
/-!
O53: the overrun deadline, and the end of a HALT single.
-/

namespace Sys2Proof.Machine

variable {s u v : State} {l : LineNo} {t : Time} {x : Txn} {since : Nat} {r : RobotNo} {m : Member} {c : Instr}

/-! ### The deadline -/

/-- A member stopped with a HALT single, in one change of its line (R88, R103). -/
theorem stopMember_offerHalt (s : State) (r : RobotNo) (ph : StopPhase) : (s.stopMember r ph).offerHalt r =
    ((s.modRobot r fun b => { b with slot := .stopping }).modMember r fun q =>
      { q with deadline := none, stop := ph }).modLine (s.robot r).static.line fun e =>
      { e with
        cycle := e.cycle.filter fun p => p.robot ≠ r
        urgent := if e.state = .down then e.urgent else offerHaltTo e.urgent r } := by
  have line : (s.setSlot r .stopping).lineOf r = (s.robot r).static.line := by
    rw [State.lineOf, State.setSlot, robot_modRobot, if_pos rfl]
  have kept (f : Member → Member) (g : Line → Line) : (((s.setSlot r .stopping).modMember r f).modLine
      (s.robot r).static.line g).lineOf r = (s.robot r).static.line := by
    rw [← line]
    show (((s.setSlot r .stopping).modMember r f).robot r).static.line = _
    rw [robot_modMember]; rfl
  rw [State.stopMember, State.leaveCycle, line, modMember_modLine, State.offerHalt, kept, modLine_modLine]
  refine congrArg (State.modLine _ _) (funext fun e => ?_)
  dsimp only
  split <;> rfl

/-- A deadline that has passed for a MOVING robot stops it (R103). -/
theorem overrunExpired_passed {d : Nat} (hm : u.member? r = some m) (deadline : m.deadline = some d)
    (moving : (u.robot r).slot = .moving) (passed : d ≤ u.now) :
    overrunExpired u r = (u.stopMember r .overrunHalt).offerHalt r := by
  simp only [overrunExpired, hm, deadline]
  exact if_pos ⟨moving, passed⟩

/-- A deadline still to come, or of a robot no longer MOVING, does nothing (R94, R103). -/
theorem overrunExpired_idle {d : Nat} (hm : u.member? r = some m) (deadline : m.deadline = some d)
    (idle : (u.robot r).slot ≠ .moving ∨ u.now < d) : overrunExpired u r = u := by
  simp only [overrunExpired, hm, deadline]
  exact if_neg fun k => idle.elim (fun h => h k.1) fun h => absurd k.2 (Nat.not_le.2 h)

/-! ### The end of a HALT single -/

/-- A HALT single ends, answered or failed, with its engine free, its line's lists as they were, and no reason of its own. -/
theorem exec_haltEnds (h : (Answering s l t x .halt since ∧ c = .answerAccept l t) ∨ FailsLast s l t x .halt since c) :
    ∃ u en, Freed s u l ∧ SameLists s u ∧ OtherStates s u l ∧ exec c s = .next (judgeEnd u l x.kind x.stale en) ∧
      en.failReason = .none := by
  rcases h with ⟨an, rfl⟩ | fails
  · exact ⟨_, .accepted, freed_answeredAt s l t, answeredAt_lists s l t, otherStates_modLine (s.clock t) l _,
      exec_answerAccept an rfl nofun, rfl⟩
  · obtain ⟨u, freed, lists, others, run⟩ := exec_failsLast_lists fails
    exact ⟨u, _, freed, lists, others, run, rfl⟩

/-- The HALT single of an overrun member decides it (R104). -/
theorem judgeEnd_overrunHalt (hm : u.member? r = some m) (stop : m.stop = .overrunHalt) (en : TxnEnd) :
    judgeEnd u l (.haltSingle r) false en = doneTest (judgeOverrunHalt u m en) := by
  simp only [judgeEnd, endHalt, hm, stop]
  rfl

/-- The HALT single of a read-back round gives its READ (R105). -/
theorem judgeEnd_readBackHalt {round : Nat} (hm : u.member? r = some m) (stop : m.stop = .halt round) (en : TxnEnd) :
    judgeEnd u l (.haltSingle r) false en = judgeReadBackHalt u m round := by
  simp only [judgeEnd, endHalt, hm, stop]
  rfl

/-- A HALT single that no member waits for is not judged (R109). -/
theorem judgeEnd_haltUnawaited (overrun : ∀ m, u.member? r = some m → m.stop ≠ .overrunHalt)
    (readBack : ∀ m, u.member? r = some m → ∀ round, m.stop ≠ .halt round) (en : TxnEnd) :
    judgeEnd u l (.haltSingle r) false en = u := by
  simp only [judgeEnd, endHalt]
  cases hm : u.member? r with
  | none => rfl
  | some m =>
    cases stop : m.stop with
    | overrunHalt => exact absurd stop (overrun m hm)
    | halt round => exact absurd stop (readBack m hm round)
    | none | read | clear => simp [stop]

/-- A READ offered to a line that is not DOWN. -/
theorem offerRead_normal (b : State) (r : RobotNo) (refresh readBack : Bool) (up : (b.line (b.lineOf r)).state ≠ .down) :
    ((b.offerRead r refresh readBack).line (b.lineOf r)).normal = offerReadTo (b.line (b.lineOf r)).normal r refresh readBack := by
  rw [State.offerRead, line_modLine, if_pos rfl, if_neg up]

theorem offerRead_engine (s : State) (r : RobotNo) (a b : Bool) (k : LineNo) :
    ((s.offerRead r a b).line k).state = (s.line k).state ∧ ((s.offerRead r a b).line k).txn = (s.line k).txn := by
  rw [State.offerRead, line_modLine]
  split
  · split <;> exact ⟨rfl, rfl⟩
  · exact ⟨rfl, rfl⟩

/-- A read-back round after its HALT single: the member waits for the READ, which is listed (R105). -/
theorem judgeReadBackHalt_waits (freed : Freed s u l) (lists : SameLists s u) (hm : u.member? r = some m) (round : Nat) :
    let v := judgeReadBackHalt u m round
    v.engineFree l ∧ v.member? r = some { m with stop := .read round } ∧ v.robots = s.robots ∧ v.events = s.events ∧
      ((u.line (s.robot r).static.line).state ≠ .down →
        (v.line (s.robot r).static.line).normal = offerReadTo (s.line (s.robot r).static.line).normal r false true) := by
  obtain ⟨-, -, rfl⟩ := member?_some hm
  have here : (u.modMember m.robot fun m => { m with stop := .read round }).lineOf m.robot = (s.robot m.robot).static.line := by
    rw [State.lineOf, robot_modMember, freed.robot]
  have normal := offerRead_normal (u.modMember m.robot fun m => { m with stop := .read round }) m.robot false true
  rw [here] at normal
  simp only [line_modMember] at normal
  obtain ⟨robots, -, events, member⟩ := modMember_waits hm (.read round)
    ((u.modMember m.robot fun m => { m with stop := .read round }).lineOf m.robot) fun e =>
      if e.state = .down then e else { e with normal := offerReadTo e.normal m.robot false true }
  obtain ⟨state, txn⟩ := offerRead_engine (u.modMember m.robot fun m => { m with stop := .read round }) m.robot false true l
  rw [line_modMember] at state txn
  refine ⟨⟨state.trans freed.state, txn.trans freed.txn⟩, member, robots.trans freed.robots, events.trans freed.events,
    fun up => (normal up).trans ?_⟩
  exact congrArg (offerReadTo · m.robot false true) (lists _).2.1

/-- Settles O53: the deadline before and after its time, then the three cases of a HALT single's end. -/
theorem overrunDeadline : Obligations.OverrunDeadline := by
  refine ⟨fun s r t m d running hm deadline => ?_, fun s l t x since r c ends kind fresh => ?_⟩
  · have run : exec (.overrunDeadline r t) s = .next (overrunExpired (s.clock t) r) :=
      running_run running fun s => overrunExpired (s.clock t) r
    refine ⟨fun moving passed => ?_, fun idle => ?_⟩
    · rw [run, overrunExpired_passed (u := s.clock t) hm deadline moving passed, stopMember_offerHalt]
      rfl
    · rw [run, overrunExpired_idle (u := s.clock t) hm deadline idle]
  · obtain ⟨u, en, freed, lists, others, run, reason⟩ := exec_haltEnds ends
    rw [kind, fresh] at run
    have member := freed.member? r
    refine ⟨fun m hm stop => ?_, fun other => ?_⟩
    · have here := member.trans hm
      rw [judgeEnd_overrunHalt here stop, judgeOverrunHalt, reason] at run
      obtain ⟨-, -, rfl⟩ := member?_some hm
      obtain ⟨ends, event⟩ := concludeUncertain_raised (o := .overrun) (why := .none) here (by decide)
        (c := .overrun) (by decide) (halfOf m.robot.val)
      obtain ⟨state, txn⟩ := concludeUncertain_engine (s := u) (r := m.robot) (o := .overrun) (why := .none) l
      exact endsIn_doneTest run ⟨state.trans freed.state, txn.trans freed.txn, ends.of_alike freed.toAlike,
        event.trans (by rw [freed.events])⟩
    · by_cases waits : ∃ m round, s.member? r = some m ∧ m.stop = .halt round
      · obtain ⟨m, round, hm, stop⟩ := waits
        rw [judgeEnd_readBackHalt (member.trans hm) stop] at run
        obtain ⟨engine, waiting, robots, events, normal⟩ := judgeReadBackHalt_waits freed lists (member.trans hm) round
        refine ⟨_, run, engine.1, engine.2, fun q k hq stop' => ?_, fun none => absurd stop (none m hm round)⟩
        obtain rfl := Option.some.inj (hm.symm.trans hq)
        obtain rfl := StopPhase.halt.inj (stop.symm.trans stop')
        refine ⟨waiting, robots, events, fun up => normal (others.up freed up)⟩
      · have judged := judgeEnd_haltUnawaited (u := u) (l := l) (r := r) (fun m hm => other m (member.symm.trans hm))
          (fun m hm round stop => waits ⟨m, round, member.symm.trans hm, stop⟩) en
        rw [judged] at run
        exact ⟨u, run, freed.state, freed.txn, fun m round hm stop => absurd ⟨m, round, hm, stop⟩ waits,
          fun _ => ⟨freed.robots, freed.wave, freed.zones, freed.events, fun k => lists k⟩⟩

end Sys2Proof.Machine
end

section
/-!
O47: the end of a DELIVER.
-/

namespace Sys2Proof.Machine

variable {s u v : State} {l : LineNo} {t : Time} {x : Txn} {r : RobotNo} {m : Member} {w : Wave}

/-- A DELIVER of a member LISTED or IN_FLIGHT is judged by R76 and R77, then the wave is tested. -/
theorem judgeEnd_deliver (hm : u.member? r = some m) (open' : m.delivery = .listed ∨ m.delivery = .inFlight) (en : TxnEnd) :
    judgeEnd u l (.deliver r) false en = doneTest (armTest (judgeDeliver u m en)) := by
  simp only [judgeEnd, endDeliver, hm, if_pos open']
  rfl

/-! ### A late ACCEPT, and a failure -/

theorem beginClear_member? (hm : u.member? r = some m) (b : Bool) : (u.beginClear m b).member? r =
    some { m with delivery := .clearing, clearLineReset := b, stop := .none } := by
  rw [beginClear_eq (member?_some hm).2.2, member?_congr (State.modLine_wave ..)]
  exact member?_changed (s := u.modRobot r fun q => { q with slot := .stopping }) hm fun _ => ⟨rfl, rfl⟩

/-- A DELIVER that leaves its member CLEARING decides nothing (R77, R82). -/
theorem judgeEnd_beginClear {en : TxnEnd} {b : Bool} (hm : u.member? r = some m)
    (open' : m.delivery = .listed ∨ m.delivery = .inFlight) (judged : judgeDeliver u m en = u.beginClear m b) :
    judgeEnd u l (.deliver r) false en = u.beginClear m b := by
  rw [judgeEnd_deliver hm open', judged, tests_of_clearing (beginClear_member? hm b) rfl]

/-! ### An ACCEPT in time -/

theorem modMember_modRobot (s : State) (r q : RobotNo) (f : Member → Member) (g : Robot → Robot) :
    (s.modMember r f).modRobot q g = (s.modRobot q g).modMember r f := by
  unfold State.modMember
  rw [show (s.modRobot q g).wave = s.wave from rfl]
  split <;> rfl

theorem modRobot_self (s : State) (r : RobotNo) : s.modRobot r (fun q => { q with slot := q.slot }) = s := by
  have same : s.robots.set r (s.robot r) = s.robots := Vector.set_getElem_self r.isLt
  show { s with robots := s.robots.set r (s.robot r) } = s
  rw [same]

/-- An ACCEPT in time makes the member ACCEPTED, and its robot ARMED unless an ABORT has stopped it (R76, R88). -/
theorem judgeDeliver_accepted (robot : m.robot = r) (inTime : m.late = false) : judgeDeliver u m .accepted =
    (u.modRobot r fun q => { q with slot := if m.stop = .none then .armed else q.slot }).setDelivery r .accepted := by
  subst robot
  simp only [judgeDeliver, inTime, Bool.false_eq_true, if_false]
  by_cases stop : m.stop = .none
  · simp only [if_pos stop]
    exact modMember_modRobot ..
  · simp only [if_neg stop]
    rw [modRobot_self]

/-- The arming test on a wave's own record (R79). -/
theorem armTest_of_wave (hw : u.wave = some w) : armTest u = { u with wave := some { w with
    state := if w.state = .arming ∧ ∀ q ∈ w.members, q.delivery = .accepted ∨ q.delivery = .closed then .armed else w.state } } := by
  rcases armTest_cases u with ⟨e, tested⟩ | ⟨v, hv, arming, settled, e⟩ <;> rw [e]
  · rw [if_neg fun k => ?_, ← hw]
    obtain ⟨q, hq, unsettled⟩ := tested w hw k.1
    exact unsettled (k.2 q hq)
  · obtain rfl := Option.some.inj (hv.symm.trans hw)
    rw [if_pos ⟨arming, settled⟩]

theorem setDelivery_of_wave (hw : u.wave = some w) (d : Delivery) : u.setDelivery r d = { u with wave := some { w with
    members := w.members.map fun q => if q.robot = r ∧ q.outcome = .none then { q with delivery := d } else q } } := by
  simp only [State.setDelivery, State.modMember, hw, Member.undecided, decide_eq_true_eq]

/-! ### A REFUSE -/

/-- A REFUSE before its member is decided: its fault code is stored, and the READ that an ABORT listed is gone (R76, R88). -/
def State.refusedDeliver (u : State) (m : Member) (fault : Byte) : State := (u.setFaultCode m.robot fault).removeAbortRead m

theorem alike_refusedDeliver (freed : Freed s u l) (m : Member) (fault : Byte) :
    Alike (s.modRobot m.robot fun b => { b with fault := fault }) (u.refusedDeliver m fault) := by
  refine (freed.toAlike.modRobot m.robot _).trans ?_
  unfold State.refusedDeliver State.removeAbortRead
  split
  · exact .refl _
  · exact .modLine _ _

/-- A REFUSE leaves on the lines all but the READ that an ABORT listed for the member (R88, log entry 13). -/
theorem refusedDeliver_line (u : State) (m : Member) (fault : Byte) (k : LineNo) : (u.refusedDeliver m fault).line k =
    { u.line k with normal := if (u.robot m.robot).static.line = k ∧ m.stop ≠ .none then
        (dropReads (u.line k).normal fun q => decide (q = m.robot)) else (u.line k).normal } := by
  have line : (u.setFaultCode m.robot fault).lineOf m.robot = (u.robot m.robot).static.line := by
    rw [State.lineOf, State.setFaultCode, robot_modRobot, if_pos rfl]
  unfold State.refusedDeliver State.removeAbortRead
  by_cases stop : m.stop = .none
  · rw [if_pos stop, if_neg fun h => h.2 stop]; rfl
  · rw [if_neg stop, State.removeRead, line, line_modLine]
    by_cases here : (u.robot m.robot).static.line = k
    · rw [if_pos here, if_pos ⟨here, stop⟩]; rfl
    · rw [if_neg here, if_neg fun h => here h.1]; rfl

/-- Settles O47: an ACCEPT in time, a late one, and a REFUSE. -/
theorem deliverEnds : Obligations.DeliverEnds := by
  intro s l t x b since r m w an kind fresh hw hm flight
  have freed := freed_answeredAt s l t
  have here := (freed.member? r).trans hm
  have robot := (member?_some hm).2.2
  have accepted := exec_answerAccept an rfl nofun
  rw [kind, fresh] at accepted
  refine ⟨fun inTime => ?_, fun late => ?_, fun fault => ?_⟩
  · have wave : ((s.answeredAt l t).modRobot r fun q =>
        { q with slot := if m.stop = .none then .armed else q.slot }).wave = some w := freed.wave.trans hw
    have waits := member?_setDelivery (s := (s.answeredAt l t).modRobot r fun q =>
      { q with slot := if m.stop = .none then .armed else q.slot }) here .accepted
    rw [judgeEnd_deliver here (.inr flight), judgeDeliver_accepted robot inTime,
      doneTest_of_member ((armTest_member? _ r).trans waits), setDelivery_of_wave wave, armTest_of_wave rfl] at accepted
    exact ⟨_, _, accepted, rfl, rfl⟩
  · rw [judgeEnd_beginClear here (.inr flight) (en := .accepted) (if_pos late), beginClear_eq robot, freed.robot] at accepted
    exact accepted
  · have refused := exec_answerRefuse (fault := fault) an rfl nofun
    rw [kind, fresh, judgeEnd_deliver here (.inr flight)] at refused
    refine endsIn_doneTest refused ?_
    subst robot
    have lists := answeredAt_lists s l t
    have line (k : LineNo) := (line_setDelivery (r := m.robot) .closed k).trans
      (refusedDeliver_line (s.answeredAt l t) m fault k)
    have alike := alike_refusedDeliver freed m fault
    have ends := closed_atRest (o := .missed) (why := .refused) ((alike.member? _).trans hm) (by decide)
    have engine (k : LineNo) := concludeAtRest_engine (s := ((s.answeredAt l t).refusedDeliver m fault).setDelivery m.robot .closed)
      (r := m.robot) (o := .missed) (why := .refused) k
    simp only [line] at engine
    refine ⟨(engineFree_armTest freed (engine l).1 (engine l).2.1).1, (engineFree_armTest freed (engine l).1 (engine l).2.1).2,
      (ends.of_alike alike).armTest, armTest_tested _, ?_, fun k => ?_⟩
    · rw [armTest_line]
      refine (engine _).2.2.2.trans ?_
      rw [freed.robot, (lists _).2.1]
      by_cases stop : m.stop = .none <;> simp [stop]
    · rw [armTest_line]
      exact (engine k).2.2.1.trans (lists k).1

end Sys2Proof.Machine
end

section
/-!
SUPPORT. Robots changed one after another with their members: what a fold of one change over a list of robots leaves.
-/

namespace Sys2Proof.Machine

variable {s t u : State} {r : RobotNo}

/-! ### The parts that no decision writes -/

/-- The states differ in robots, zones, lines, wave record and events alone. -/
def SameFrame (s u : State) : Prop :=
  u = { s with robots := u.robots, zones := u.zones, lines := u.lines, wave := u.wave, events := u.events }

namespace SameFrame

theorem refl (s : State) : SameFrame s s := rfl

theorem trans (h : SameFrame s t) (k : SameFrame t u) : SameFrame s u :=
  Eq.trans k (congrArg (fun v : State => { v with
    robots := u.robots, zones := u.zones, lines := u.lines, wave := u.wave, events := u.events }) h)

theorem modLine (l : LineNo) (f : Line → Line) : SameFrame s (s.modLine l f) := rfl

theorem modLines (f : Line → Line) : SameFrame s (s.modLines f) := rfl

theorem modRobot (r : RobotNo) (f : Robot → Robot) : SameFrame s (s.modRobot r f) := rfl

theorem raise (c : EventClass) (d : Half) : SameFrame s (s.raise c d) := rfl

theorem modMember (r : RobotNo) (f : Member → Member) : SameFrame s (s.modMember r f) := by
  unfold State.modMember
  split
  · rfl
  · rfl

theorem modWave (f : Wave → Wave) : SameFrame s (s.modWave f) := by
  unfold State.modWave
  split
  · rfl
  · rfl

theorem settleNaming (r : RobotNo) : SameFrame s (s.settleNaming r) := by
  unfold State.settleNaming State.settle
  rw [settleWith_eq]
  rfl

end SameFrame

/-! ### One change over a list of robots -/

/-- The member as a change of the undecided members of some robots leaves it. -/
def changeIn (x : Member → Member) (rs : List RobotNo) (m : Member) : Member :=
  if m.robot ∈ rs ∧ m.outcome = .none then x m else m

/-- From `s` to `u` the undecided members of the robots `rs` change by `x` and the robots themselves by `y`; the rest of the wave
record stays, a line changes in its normal list and its poll cycle alone, and no event but ZONE_CONFLICT is raised. -/
structure ChangesAll (x : Member → Member) (y : Robot → Robot) (rs : List RobotNo) (s u : State) : Prop where
  frame : SameFrame s u
  wave : u.wave = s.wave.map fun w => { w with members := w.members.map (changeIn x rs) }
  robots : ∀ q, u.robot q = if q ∈ rs then y (s.robot q) else s.robot q
  lines : ∀ k, u.line k = { s.line k with normal := (u.line k).normal, cycle := (u.line k).cycle }
  masks : u.events.masks = s.events.masks
  events : ∀ c, c ≠ .zoneConflict → u.events.get c = s.events.get c

namespace ChangesAll

variable {x x' : Member → Member} {y y' : Robot → Robot} {rs : List RobotNo}

theorem changeIn_id (rs : List RobotNo) : changeIn id rs = id := by
  funext m; unfold changeIn; split <;> rfl

theorem map_members_id {w : Option Wave} : (w.map fun w => { w with members := w.members.map id }) = w := by
  cases w <;> simp

/-- A step that writes no wave record and no robot. -/
theorem of_lines (frame : SameFrame s u) (wave : u.wave = s.wave) (robots : u.robots = s.robots)
    (lines : ∀ k, u.line k = { s.line k with normal := (u.line k).normal, cycle := (u.line k).cycle })
    (masks : u.events.masks = s.events.masks) (events : ∀ c, c ≠ .zoneConflict → u.events.get c = s.events.get c) :
    ChangesAll id id rs s u where
  frame := frame
  wave := by rw [changeIn_id, map_members_id, wave]
  robots q := by rw [robot_congr robots, id, ite_self]
  lines := lines
  masks := masks
  events := events

theorem modLine (l : LineNo) {f : Line → Line} (hf : ∀ e, f e = { e with normal := (f e).normal, cycle := (f e).cycle }) :
    ChangesAll id id rs s (s.modLine l f) := by
  refine of_lines rfl rfl rfl (fun k => ?_) rfl fun _ _ => rfl
  rw [line_modLine]
  split
  · exact hf _
  · rfl

theorem settleNaming (r : RobotNo) : ChangesAll id id rs s (s.settleNaming r) :=
  of_lines (.settleNaming r) (settleNaming_wave ..) (settleNaming_robots ..) (fun k => by rw [settleNaming_line])
    (settleWith_events ..).2 fun _ hc => settleNaming_events _ _ hc

theorem blockHeld (r : RobotNo) : ChangesAll id id rs s (s.blockHeld r) :=
  of_lines rfl rfl rfl (fun _ => rfl) rfl fun _ _ => rfl

theorem modMember (r : RobotNo) (f : Member → Member) : ChangesAll f id [r] s (s.modMember r f) where
  frame := .modMember r f
  wave := by
    unfold State.modMember
    split
    · rename_i none; rw [none]; rfl
    · rename_i w hw
      rw [hw]
      simp [changeIn, Member.undecided]
  robots q := by rw [robot_modMember, id, ite_self]
  lines k := by rw [line_modMember]
  masks := by rw [State.modMember_events]
  events _ _ := by rw [State.modMember_events]

theorem modRobot (r : RobotNo) (g : Robot → Robot) : ChangesAll id g [r] s (s.modRobot r g) where
  frame := rfl
  wave := by rw [changeIn_id, map_members_id]; rfl
  robots q := by
    rw [robot_modRobot]
    by_cases h : r = q <;> simp [h, eq_comm]
  lines _ := rfl
  masks := rfl
  events _ _ := rfl

/-- Two changes one after the other, the first of which leaves members undecided. -/
theorem comp (h : ChangesAll x y rs s t) (k : ChangesAll x' y' rs t u)
    (hx : ∀ m, (x m).robot = m.robot ∧ (x m).outcome = m.outcome) : ChangesAll (x' ∘ x) (y' ∘ y) rs s u where
  frame := h.frame.trans k.frame
  wave := by
    have both (m : Member) : changeIn x' rs (changeIn x rs m) = changeIn (x' ∘ x) rs m := by
      unfold changeIn
      by_cases hm : m.robot ∈ rs ∧ m.outcome = .none
      · rw [if_pos hm, if_pos (by rw [(hx m).1, (hx m).2]; exact hm), if_pos hm]; rfl
      · rw [if_neg hm, if_neg hm, if_neg hm]
    rw [k.wave, h.wave, Option.map_map]
    refine congrArg (fun f => Option.map f s.wave) (funext fun w => ?_)
    simp only [Function.comp_apply, List.map_map]
    exact congrArg (fun ms => { w with members := ms }) (List.map_congr_left fun m _ => both m)
  robots q := by
    rw [k.robots, h.robots]
    split <;> rfl
  lines l := by rw [k.lines, h.lines]
  masks := k.masks.trans h.masks
  events c hc := (k.events c hc).trans (h.events c hc)

/-- A change followed by one that leaves the members. -/
theorem thenRobots (h : ChangesAll x y rs s t) (k : ChangesAll id y' rs t u) : ChangesAll x (y' ∘ y) rs s u where
  frame := h.frame.trans k.frame
  wave := by rw [k.wave, changeIn_id, map_members_id, h.wave]
  robots q := by
    rw [k.robots, h.robots]
    split <;> rfl
  lines l := by rw [k.lines, h.lines]
  masks := k.masks.trans h.masks
  events c hc := (k.events c hc).trans (h.events c hc)

/-- A change of one robot, written another way. -/
theorem congr_robot (h : ChangesAll x y [r] s u) (same : y (s.robot r) = y' (s.robot r)) : ChangesAll x y' [r] s u where
  frame := h.frame
  wave := h.wave
  robots q := by
    rw [h.robots]
    by_cases hq : q = r
    · simp [hq, same]
    · simp [hq]
  lines := h.lines
  masks := h.masks
  events := h.events

/-- One change of a robot and its member, over a list of robots. -/
theorem foldl {f : State → RobotNo → State} (hx : ∀ m, (x m).robot = m.robot) (idem : ∀ m, x (x m) = x m)
    (hy : ∀ b, y (y b) = y b) (step : ∀ s r, ChangesAll x y [r] s (f s r)) :
    ∀ (rs : List RobotNo) (s : State), ChangesAll x y rs s (rs.foldl f s)
  | [], s => by
    refine ⟨.refl s, ?_, fun _ => rfl, fun _ => rfl, rfl, fun _ _ => rfl⟩
    have none : changeIn x [] = id := by funext m; simp [changeIn]
    rw [none, map_members_id]
    rfl
  | r :: rs, s => by
    have h := step s r
    have k := foldl hx idem hy step rs (f s r)
    refine ⟨h.frame.trans k.frame, ?_, fun q => ?_, fun l => ?_, k.masks.trans h.masks,
      fun c hc => (k.events c hc).trans (h.events c hc)⟩
    · have both (m : Member) : changeIn x rs (changeIn x [r] m) = changeIn x (r :: rs) m := by
        unfold changeIn
        by_cases out : m.outcome = .none <;> by_cases here : m.robot = r <;> by_cases later : m.robot ∈ rs <;>
          simp [out, here, later, hx, idem]
      rw [List.foldl_cons, k.wave, h.wave, Option.map_map]
      refine congrArg (fun f => Option.map f s.wave) (funext fun w => ?_)
      simp only [Function.comp_apply, List.map_map]
      exact congrArg (fun ms => { w with members := ms }) (List.map_congr_left fun m _ => both m)
    · rw [List.foldl_cons, k.robots, h.robots]
      by_cases here : q = r <;> by_cases later : q ∈ rs <;> simp [here, later, hy]
    · rw [List.foldl_cons, k.lines, h.lines]

end ChangesAll

/-! ### Decisions as changes -/

/-- A robot as the decision of its member with a rest state leaves it (R9). -/
def Robot.restsWith (o : Ending) (why : Reason) (b : Robot) : Robot :=
  { b with
    slot := b.rest.slot, lastOutcome := o, lastReason := why
    believed := match b.rest with
      | .idle => b.believed
      | .uncertain => Position.zero }

/-- A robot as the decision of its member with its position lost leaves it (R9). -/
def Robot.losesWith (o : Ending) (why : Reason) (b : Robot) : Robot :=
  { b with slot := .uncertain, believed := Position.zero, lastOutcome := o, lastReason := why }

theorem restsWith_uncertain {o : Ending} {why : Reason} {b : Robot} (rest : b.rest = .uncertain) :
    b.restsWith o why = b.losesWith o why := by
  cases b; cases rest; rfl

theorem restsWith_idle {o : Ending} {why : Reason} {b : Robot} (rest : b.rest = .idle) :
    b.restsWith o why = { b with slot := .idle, lastOutcome := o, lastReason := why } := by
  cases b; cases rest; rfl

theorem restsWith_restsWith (o : Ending) (why : Reason) (b : Robot) :
    (b.restsWith o why).restsWith o why = b.restsWith o why := by
  cases rest : b.rest with
  | uncertain => rw [restsWith_uncertain rest, restsWith_uncertain (show (b.losesWith o why).rest = _ from rest)]; rfl
  | idle => rw [restsWith_idle rest]; exact restsWith_idle rest

namespace ChangesAll

variable (s : State) (r : RobotNo) (o : Ending) (why : Reason)

theorem leaveCycle {rs : List RobotNo} : ChangesAll id id rs s (s.leaveCycle r) := .modLine _ fun _ => rfl

theorem conclude : ChangesAll (fun m => m.decided o why) (fun b => { b with lastOutcome := o, lastReason := why }) [r] s
    (s.conclude r o why) :=
  ((ChangesAll.modMember r fun m => m.decided o why).thenRobots
    (.modRobot r fun b => { b with lastOutcome := o, lastReason := why })).thenRobots (.leaveCycle _ r)

theorem becomeUncertain : ChangesAll id (fun b => { b with slot := .uncertain, believed := Position.zero }) [r] s
    (s.becomeUncertain r) :=
  ((ChangesAll.modRobot r _).thenRobots (.blockHeld r)).thenRobots (.settleNaming r)

theorem concludeUncertain : ChangesAll (fun m => m.decided o why) (Robot.losesWith o why) [r] s
    (s.concludeUncertain r o why) :=
  (ChangesAll.conclude s r o why).thenRobots (.becomeUncertain ..)

theorem concludeAtRest : ChangesAll (fun m => m.decided o why) (Robot.restsWith o why) [r] s (s.concludeAtRest r o why) := by
  cases rest : (s.robot r).rest with
  | uncertain =>
    rw [concludeAtRest_uncertain rest]
    refine (ChangesAll.concludeUncertain s r o why).congr_robot ?_
    exact (restsWith_uncertain rest).symm
  | idle =>
    rw [concludeAtRest_idle rest]
    refine (((ChangesAll.conclude s r o why).thenRobots (.modRobot r fun b => { b with slot := .idle })).thenRobots
      (.settleNaming r)).congr_robot ?_
    exact (restsWith_idle rest).symm

/-- A member MISSED while it was LISTED. -/
def missed (m : Member) : Member := { m.decided .missed .none with delivery := .closed }

theorem missListed : ChangesAll missed (Robot.restsWith .missed .none) [r] s (s.missListed r) := by
  have lines : ChangesAll id id [r] s (s.removeDeliver r) := .modLine _ fun _ => rfl
  have closed := lines.comp (.modMember r fun m => { m with delivery := .closed }) fun _ => ⟨rfl, rfl⟩
  have ends := closed.comp (.concludeAtRest _ r .missed .none) fun _ => ⟨rfl, rfl⟩
  rwa [show (fun m : Member => m.decided .missed .none) ∘ (fun m => { m with delivery := .closed }) ∘ id = missed from
    funext fun m => decided_closed m .missed .none] at ends

theorem foldl_missListed (rs : List RobotNo) :
    ChangesAll missed (Robot.restsWith .missed .none) rs s (rs.foldl State.missListed s) :=
  foldl (x := missed) (fun _ => rfl) (fun m => by simp [missed, Member.decided]) (restsWith_restsWith _ _) missListed rs s

end ChangesAll

end Sys2Proof.Machine
end

section
/-!
SUPPORT. The members a list of robots names, the DELIVERs that leave the normal lists, and a change of each line in turn.
-/

namespace Sys2Proof.Machine

variable {s t u : State} {r : RobotNo} {m : Member} {w : Wave}

/-! ### What one step of a fold establishes -/

theorem foldl_keeps {α : Type} {f : State → α → State} {P : State → Prop} (keep : ∀ s q, P s → P (f s q)) (rs : List α)
    (h : P s) : P (rs.foldl f s) := by
  induction rs generalizing s with
  | nil => exact h
  | cons q rs ih => exact ih (keep s q h)

/-- What the step of `r` establishes and every step keeps holds at the end. -/
theorem foldl_establishes {f : State → RobotNo → State} {P I : State → Prop} {rs : List RobotNo} (hr : r ∈ rs)
    (inv : ∀ s q, I s → I (f s q)) (est : ∀ s, I s → P (f s r)) (keep : ∀ s q, P s → P (f s q)) (h : I s) :
    P (rs.foldl f s) := by
  induction rs generalizing s with
  | nil => cases hr
  | cons q rs ih =>
    rcases List.mem_cons.1 hr with rfl | later
    · exact foldl_keeps keep rs (est s h)
    · exact ih later (inv s q h)

/-! ### Members chosen by a test -/

theorem mem_undecidedMembers (hw : s.wave = some w) : m ∈ s.undecidedMembers ↔ m ∈ w.members ∧ m.outcome = .none := by
  simp [State.undecidedMembers, members_of_wave hw, List.mem_filter, Member.undecided]

/-- With one member to a robot, a robot is chosen exactly when its undecided member passes the test. -/
theorem mem_memberRobots (hw : s.wave = some w) (distinct : (w.members.map Member.robot).Nodup) {p : Member → Bool}
    (hm : m ∈ w.members) (undecided : m.outcome = .none) : m.robot ∈ s.memberRobots p ↔ p m = true := by
  simp only [State.memberRobots, List.mem_map, List.mem_filter, mem_undecidedMembers hw]
  refine ⟨?_, fun h => ⟨m, ⟨⟨hm, undecided⟩, h⟩, rfl⟩⟩
  rintro ⟨q, ⟨⟨hq, -⟩, h⟩, robot⟩
  rwa [← List.inj_on_of_nodup_map distinct hq hm robot]

theorem mem_memberRobots_iff (hw : s.wave = some w) {p : Member → Bool} :
    r ∈ s.memberRobots p ↔ ∃ m ∈ w.members, m.outcome = .none ∧ p m = true ∧ m.robot = r := by
  simp [State.memberRobots, List.mem_map, List.mem_filter, mem_undecidedMembers hw, and_assoc]

/-- A change of the chosen members, by the test that chose them. -/
theorem changeIn_memberRobots (hw : s.wave = some w) (distinct : (w.members.map Member.robot).Nodup) {p : Member → Bool}
    (x : Member → Member) (hm : m ∈ w.members) :
    changeIn x (s.memberRobots p) m = if m.outcome = .none ∧ p m = true then x m else m := by
  unfold changeIn
  by_cases undecided : m.outcome = .none
  · simp [undecided, mem_memberRobots hw distinct hm undecided]
  · simp [undecided]

/-! ### A DELIVER that leaves its line (R81, R87) -/

/-- The list holds no DELIVER of a robot. -/
def NoDeliver (n : List NormalEntry) (r : RobotNo) : Prop := ∀ x ∈ n, x.robot = r → x.deliver = false

theorem noDeliver_dropDeliver (n : List NormalEntry) (r : RobotNo) : NoDeliver (dropDeliver n r) r := by
  intro x hx robot
  obtain ⟨y, -, rfl⟩ := List.mem_map.1 (List.mem_filter.1 hx).1
  by_cases here : y.robot = r
  · rw [if_pos here]
  · rw [if_neg here] at robot; exact absurd robot here

theorem NoDeliver.dropDeliver {n : List NormalEntry} (h : NoDeliver n r) (q : RobotNo) : NoDeliver (dropDeliver n q) r := by
  intro x hx robot
  obtain ⟨y, hy, rfl⟩ := List.mem_map.1 (List.mem_filter.1 hx).1
  by_cases here : y.robot = q
  · rw [if_pos here]
  · rw [if_neg here] at robot ⊢; exact h y hy robot

theorem missListed_normal (s : State) (r : RobotNo) (k : LineNo) : ((s.missListed r).line k).normal =
    if (s.robot r).static.line = k then dropDeliver (s.line k).normal r else (s.line k).normal := by
  rw [State.missListed, (concludeAtRest_engine k).2.2.2, line_setDelivery, State.removeDeliver, line_modLine]
  show Line.normal (if (s.robot r).static.line = k then _ else _) = _
  split <;> rfl

theorem missListed_keeps (k : LineNo) (q : RobotNo) (h : NoDeliver (s.line k).normal r) :
    NoDeliver ((s.missListed q).line k).normal r := by
  rw [missListed_normal]
  split
  · exact h.dropDeliver q
  · exact h

/-- The members missed lose their DELIVERs. -/
theorem foldl_missListed_drops (rs : List RobotNo) (hr : r ∈ rs) :
    NoDeliver ((rs.foldl State.missListed s).line (s.robot r).static.line).normal r := by
  refine foldl_establishes (P := fun t => NoDeliver (t.line (s.robot r).static.line).normal r)
    (I := fun t => (t.robot r).static = (s.robot r).static) hr (fun t q h => ?_) (fun t h => ?_)
    (fun t q => missListed_keeps _ q) rfl
  · rw [← h, (ChangesAll.missListed t q).robots]
    split <;> rfl
  · rw [missListed_normal, if_pos (by rw [h])]
    exact noDeliver_dropDeliver _ r

/-! ### Each line in turn -/

theorem modLine_of_id {l : LineNo} {f : Line → Line} (hf : ∀ e, f e = e) : s.modLine l f = s := by
  have same : s.lines.set l (s.line l) = s.lines := Vector.set_getElem_self l.isLt
  show { s with lines := s.lines.set l (f (s.line l)) } = s
  rw [hf, same]

/-- A change of each line in turn, which depends on no other line. -/
theorem foldl_modLine {g : State → LineNo → Line → Line} (hg : ∀ s k f l, g (s.modLine k f) l = g s l) (ls : List LineNo)
    (s : State) (distinct : ls.Nodup) : let u := ls.foldl (fun s l => s.modLine l (g s l)) s
      u = { s with lines := u.lines } ∧ ∀ l, u.line l = if l ∈ ls then g s l (s.line l) else s.line l := by
  induction ls generalizing s with
  | nil => exact ⟨rfl, fun _ => rfl⟩
  | cons k ls ih =>
    obtain ⟨frame, lines⟩ := ih (s.modLine k (g s k)) (List.nodup_cons.1 distinct).2
    refine ⟨frame, fun l => (lines l).trans ?_⟩
    rw [hg, line_modLine]
    by_cases here : k = l
    · subst here
      simp [(List.nodup_cons.1 distinct).1]
    · simp [here, Ne.symm here]

theorem mem_allLines (l : LineNo) : l ∈ allLines := by revert l; decide

theorem foldl_allLines {g : State → LineNo → Line → Line} {f : State → LineNo → State}
    (hf : ∀ s l, f s l = s.modLine l (g s l)) (hg : ∀ s k f l, g (s.modLine k f) l = g s l) (s : State) :
    let u := allLines.foldl f s
    u = { s with lines := u.lines } ∧ ∀ l, u.line l = g s l (s.line l) := by
  obtain rfl : f = fun s l => s.modLine l (g s l) := funext fun s => funext fun l => hf s l
  obtain ⟨frame, lines⟩ := foldl_modLine hg allLines s (by decide)
  exact ⟨frame, fun l => (lines l).trans (if_pos (mem_allLines l))⟩

/-- A line as the start of a wave leaves it (R81, R121, R123). -/
def Line.goSet (n : Half) (s : State) (l : LineNo) (e : Line) : Line :=
  if s.hasArmed l = true ∧ e.state ≠ .down then { e with goPending := some ⟨n, s.excludedDrop l⟩ } else e

theorem foldl_goOnLine (n : Half) (s : State) : let u := allLines.foldl (State.goOnLine n) s
    u = { s with lines := u.lines } ∧ ∀ l, u.line l = Line.goSet n s l (s.line l) := by
  refine foldl_allLines (fun s l => ?_) (fun _ _ _ _ => rfl) s
  unfold State.goOnLine State.offerGo
  by_cases armed : s.hasArmed l = true
  · rw [if_pos armed]
    refine congrArg (s.modLine l) (funext fun e => ?_)
    simp only [Line.goSet, armed, true_and]
    split <;> simp [*]
  · rw [if_neg armed]
    exact (modLine_of_id (f := Line.goSet n s l) fun e => if_neg fun h => armed h.1).symm

/-- A line as an ABORT leaves it (R87, R121, R123). -/
def Line.haltSet (s : State) (l : LineNo) (e : Line) : Line :=
  if s.hasUndecided l = true ∧ e.state ≠ .down then { e with haltPending := true } else e

theorem foldl_haltLine (s : State) : let u := allLines.foldl State.haltLine s
    u = { s with lines := u.lines } ∧ ∀ l, u.line l = Line.haltSet s l (s.line l) := by
  refine foldl_allLines (fun s l => ?_) (fun _ _ _ _ => rfl) s
  unfold State.haltLine State.offerHaltAll
  by_cases carries : s.hasUndecided l = true
  · rw [if_pos carries]
    refine congrArg (s.modLine l) (funext fun e => ?_)
    simp only [Line.haltSet, carries, true_and]
    split <;> simp [*]
  · rw [if_neg carries]
    exact (modLine_of_id (f := Line.haltSet s l) fun e => if_neg fun h => carries h.1).symm

end Sys2Proof.Machine
end

section
/-!
O36 and O37: a mark of the timebase, and the wave that it starts.
-/

namespace Sys2Proof.Machine

variable {s u v : State} {w : Wave} {m : Member} {l : LineNo}

/-! ### The members at the start mark -/

/-- A member as the start of its wave leaves it (R81, R82). -/
def Member.started (m : Member) : Member :=
  if m.outcome = .none ∧ m.delivery = .listed then ChangesAll.missed m
  else if m.outcome = .none ∧ m.delivery = .inFlight then { m with late := true }
  else m

/-- A member that the start of its wave leaves undecided. -/
def Member.stays (m : Member) : Prop := m.outcome = .none ∧ m.delivery ≠ .listed

@[simp] theorem started_robot (m : Member) : m.started.robot = m.robot := by unfold Member.started; split <;> [rfl; split] <;> rfl
@[simp] theorem started_line (m : Member) : m.started.line = m.line := by unfold Member.started; split <;> [rfl; split] <;> rfl
@[simp] theorem started_drop (m : Member) : m.started.drop = m.drop := by unfold Member.started; split <;> [rfl; split] <;> rfl

theorem started_outcome (m : Member) : m.started.outcome = .none ↔ m.stays := by
  unfold Member.started Member.stays
  by_cases undecided : m.outcome = .none <;> by_cases listed : m.delivery = .listed <;>
    by_cases flight : m.delivery = .inFlight <;> simp_all [ChangesAll.missed, Member.decided]

theorem started_late (h : m.stays) : m.started.late = true ↔ m.late = true ∨ m.delivery = .inFlight := by
  obtain ⟨undecided, unlisted⟩ := h
  rw [Member.started, if_neg fun k => unlisted k.2]
  by_cases flight : m.delivery = .inFlight <;> simp [undecided, flight]

/-- The wave's members missed and marked late, with the wave RUNNING (R80, R81, R82). -/
def State.membersStarted (s : State) : State :=
  (s.memberRobots Member.isInFlight).foldl (fun s r => s.modMember r fun m => { m with late := true })
    ((s.memberRobots Member.isListed).foldl State.missListed (s.modWave fun w => { w with state := .running }))

/-- The start of wave `w` up to its completion test. -/
def State.waveStarted (s : State) (w : Wave) : State :=
  let u := allLines.foldl (State.goOnLine w.number) s.membersStarted
  if s.memberRobots Member.isListed = [] ∧ s.memberRobots Member.isInFlight = [] then u else u.raise .waveLate w.number

theorem startWave_eq (s : State) (w : Wave) : startWave s w = doneTest (s.waveStarted w) := rfl

theorem modWave_of_wave (hw : s.wave = some w) (f : Wave → Wave) : s.modWave f = { s with wave := some (f w) } := by
  simp [State.modWave, hw]

theorem lateMarked (rs : List RobotNo) (s : State) : ChangesAll (fun m => { m with late := true }) id rs s
    (rs.foldl (fun s r => s.modMember r fun m => { m with late := true }) s) :=
  .foldl (x := fun m : Member => { m with late := true }) (fun _ => rfl) (fun _ => rfl) (fun _ => rfl)
    (fun _ r => .modMember r _) rs s

theorem lateMarked_line (rs : List RobotNo) (k : LineNo) :
    (rs.foldl (fun s r => s.modMember r fun m => { m with late := true }) s).line k = s.line k := by
  induction rs generalizing s with
  | nil => rfl
  | cons r rs ih => exact ih.trans (line_modMember ..)

/-- What the wave's members, their robots and the lines are once those LISTED are missed and those in flight late. -/
theorem membersStarted_spec (hw : s.wave = some w) (distinct : (w.members.map Member.robot).Nodup) :
    let u := s.membersStarted
    SameFrame s u ∧ u.wave = some { w with state := .running, members := w.members.map Member.started } ∧
      (∀ q, u.robot q = if q ∈ s.memberRobots Member.isListed then (s.robot q).restsWith .missed .none else s.robot q) ∧
      (∀ k, u.line k = { s.line k with normal := (u.line k).normal, cycle := (u.line k).cycle }) ∧
      (∀ r ∈ s.memberRobots Member.isListed, NoDeliver (u.line (s.robot r).static.line).normal r) ∧
      u.events.masks = s.events.masks ∧ ∀ c, c ≠ .zoneConflict → u.events.get c = s.events.get c := by
  have running := modWave_of_wave hw fun w => { w with state := .running }
  have missed := ChangesAll.foldl_missListed (s.modWave fun w => { w with state := .running })
    (s.memberRobots Member.isListed)
  have late := lateMarked (s.memberRobots Member.isInFlight)
    ((s.memberRobots Member.isListed).foldl State.missListed (s.modWave fun w => { w with state := .running }))
  have drops (r : RobotNo) := foldl_missListed_drops (s := s.modWave fun w => { w with state := .running })
    (r := r) (s.memberRobots Member.isListed)
  dsimp only
  refine ⟨(SameFrame.modWave _).trans (missed.frame.trans late.frame), ?_, fun q => ?_, fun k => ?_, fun r hr => ?_, ?_,
    fun c hc => ?_⟩
  · rw [State.membersStarted, late.wave, missed.wave, running]
    refine congrArg some (congrArg (fun ms => { w with state := .running, members := ms }) ?_)
    simp only [List.map_map]
    refine List.map_congr_left fun m hm => ?_
    have listed := changeIn_memberRobots hw distinct (p := Member.isListed) ChangesAll.missed hm
    have flight := changeIn_memberRobots hw distinct (p := Member.isInFlight) (fun m => { m with late := true }) hm
    simp only [Member.isListed, Member.isInFlight, decide_eq_true_eq] at listed flight
    rw [Function.comp_apply, listed, Member.started]
    by_cases first : m.outcome = .none ∧ m.delivery = .listed
    · rw [if_pos first, if_pos first]
      exact if_neg fun h => absurd h.2 (by simp [ChangesAll.missed, Member.decided])
    · rw [if_neg first, if_neg first, flight]
  · rw [State.membersStarted, late.robots, missed.robots, id, ite_self, robot_modWave]
  · rw [State.membersStarted, late.lines, missed.lines, running]; rfl
  · rw [State.membersStarted, lateMarked_line]
    have kept := drops r hr
    rwa [robot_modWave] at kept
  · rw [State.membersStarted, late.masks, missed.masks, running]
  · rw [State.membersStarted, late.events c hc, missed.events c hc, running]

/-! ### The GO of the wave (R81, R82) -/

section

variable (wave : u.wave = some { w with state := .running, members := w.members.map Member.started })
include wave

theorem mem_undecided_started : m ∈ u.undecidedMembers ↔ ∃ q ∈ w.members, q.stays ∧ q.started = m := by
  rw [mem_undecidedMembers wave, List.mem_map]
  constructor
  · rintro ⟨⟨q, hq, rfl⟩, undecided⟩
    exact ⟨q, hq, (started_outcome q).1 undecided, rfl⟩
  · rintro ⟨q, hq, stays, rfl⟩
    exact ⟨⟨q, hq, rfl⟩, (started_outcome q).2 stays⟩

/-- A line has the GO when it carries an ARMED member that stays (R81). -/
theorem hasArmed_started (robots : ∀ q ∈ w.members, q.stays → u.robot q.robot = s.robot q.robot) : u.hasArmed l = true ↔
    ∃ m ∈ w.members, m.stays ∧ m.line = l ∧ (s.robot m.robot).slot = .armed := by
  simp only [State.hasArmed, List.any_eq_true, mem_undecided_started wave, Bool.and_eq_true, decide_eq_true_eq]
  constructor
  · rintro ⟨-, ⟨q, hq, stays, rfl⟩, line, armed⟩
    rw [started_robot, robots q hq stays] at armed
    exact ⟨q, hq, stays, (started_line q).symm.trans line, armed⟩
  · rintro ⟨q, hq, stays, line, armed⟩
    refine ⟨_, ⟨q, hq, stays, rfl⟩, (started_line q).trans line, ?_⟩
    rwa [started_robot, robots q hq stays]

/-- The one late member of a line gives its drop to the GO (R82). -/
theorem excludedDrop_late (hm : m ∈ w.members) (stays : m.stays) (line : m.line = l) (flight : m.delivery = .inFlight)
    (only : ∀ q ∈ w.members, q.stays → q.line = l → q.late = true ∨ q.delivery = .inFlight → q = m) :
    u.excludedDrop l = m.drop := by
  unfold State.excludedDrop
  split
  · rename_i q found
    obtain ⟨p, hp, pStays, rfl⟩ := (mem_undecided_started wave).1 (List.mem_of_find?_eq_some found)
    have test := List.find?_some found
    simp only [Bool.and_eq_true, decide_eq_true_eq, started_line] at test
    rw [started_drop, only p hp pStays test.1 ((started_late pStays).1 test.2)]
  · rename_i none
    have fails := List.find?_eq_none.1 none m.started ((mem_undecided_started wave).2 ⟨m, hm, stays, rfl⟩)
    simp [line, (started_late stays).2 (.inr flight)] at fails

/-- With no late member on its line the GO excludes none (R82). -/
theorem excludedDrop_none (none : ∀ q ∈ w.members, q.stays → q.line = l → q.late = false ∧ q.delivery ≠ .inFlight) :
    u.excludedDrop l = 0 := by
  unfold State.excludedDrop
  split
  · rename_i q found
    obtain ⟨p, hp, stays, rfl⟩ := (mem_undecided_started wave).1 (List.mem_of_find?_eq_some found)
    have test := List.find?_some found
    simp only [Bool.and_eq_true, decide_eq_true_eq, started_line] at test
    obtain ⟨early, apart⟩ := none p hp stays test.1
    rcases (started_late stays).1 test.2 with h | h
    · rw [early] at h; cases h
    · exact absurd h apart
  · rfl

end

theorem alike_raiseUnless (c : Prop) [Decidable c] (t : State) (e : EventClass) (d : Half) :
    Alike t (if c then t else t.raise e d) ∧ (if c then t else t.raise e d).lines = t.lines ∧
      SameFrame t (if c then t else t.raise e d) := by
  split
  · exact ⟨.refl t, rfl, .refl t⟩
  · exact ⟨.raise e d, rfl, .raise e d⟩

/-- The state after the start of a wave, part by part (R81, R82). -/
theorem waveStarted_spec (w : Wave) (s : State) : let u := s.membersStarted; let v := s.waveStarted w
    SameFrame u v ∧ v.robots = u.robots ∧ v.wave = u.wave ∧ (∀ l, v.line l = Line.goSet w.number u l (u.line l)) ∧
      v.events = if s.memberRobots Member.isListed = [] ∧ s.memberRobots Member.isInFlight = [] then u.events
        else u.events.put .waveLate ((u.events.get .waveLate).raised w.number) := by
  obtain ⟨frame, lines⟩ := foldl_goOnLine w.number s.membersStarted
  dsimp only
  unfold State.waveStarted
  generalize allLines.foldl (State.goOnLine w.number) s.membersStarted = t at frame lines
  dsimp only
  obtain ⟨alike, same, raised⟩ := alike_raiseUnless (s.memberRobots Member.isListed = [] ∧
    s.memberRobots Member.isInFlight = []) t .waveLate w.number
  refine ⟨SameFrame.trans (by rw [frame]; rfl) raised, alike.robots.trans (by rw [frame]), alike.wave.trans (by rw [frame]),
    fun l => (line_congr same l).trans (lines l), ?_⟩
  split
  · rw [frame]
  · rw [frame]; rfl

theorem memberRobots_nil (hw : s.wave = some w) {p : Member → Bool} :
    s.memberRobots p = [] ↔ ∀ m ∈ w.members, m.outcome = .none → p m = false := by
  rw [List.eq_nil_iff_forall_not_mem]
  simp only [mem_memberRobots_iff hw]
  constructor
  · intro h m hm undecided
    exact Bool.eq_false_iff.2 fun hp => h m.robot ⟨m, hm, undecided, hp, rfl⟩
  · rintro h r ⟨m, hm, undecided, hp, -⟩
    rw [h m hm undecided] at hp; cases hp

/-- A wave has started when its members are missed and late, its GOs are set and WAVE_LATE is raised (R81, R82). -/
theorem waveStarted_starts (hw : s.wave = some w) (distinct : (w.members.map Member.robot).Nodup) :
    WaveStarts s (s.waveStarted w) w := by
  obtain ⟨frame, wave, robots, lines, drops, masks, events⟩ := membersStarted_spec hw distinct
  obtain ⟨vFrame, vRobots, vWave, vLines, vEvents⟩ := waveStarted_spec w s
  have stay (q : Member) (hq : q ∈ w.members) (stays : q.stays) : s.membersStarted.robot q.robot = s.robot q.robot := by
    rw [robots, if_neg]
    rw [mem_memberRobots hw distinct hq stays.1, Member.isListed, decide_eq_true_eq]
    exact stays.2
  have normal (k : LineNo) : ((s.waveStarted w).line k).normal = (s.membersStarted.line k).normal := by
    rw [vLines, Line.goSet]; split <;> rfl
  have quiet : (s.memberRobots Member.isListed = [] ∧ s.memberRobots Member.isInFlight = []) ↔
      ¬∃ m ∈ w.members, m.outcome = .none ∧ (m.delivery = .listed ∨ m.delivery = .inFlight) := by
    simp only [memberRobots_nil hw, Member.isListed, Member.isInFlight, decide_eq_false_iff_not]
    grind
  refine ⟨frame.trans vFrame, vWave.trans wave, fun m hm undecided listed => ?_, fun r away => ?_, fun l up => ⟨?_, ?_⟩,
    ?_, ?_⟩
  · have mem : m.robot ∈ s.memberRobots Member.isListed :=
      (mem_memberRobots hw distinct hm undecided).2 (decide_eq_true listed)
    rw [robot_congr vRobots, robots, if_pos mem, normal]
    exact ⟨rfl, rfl, rfl, drops _ mem⟩
  · rw [robot_congr vRobots, robots, if_neg]
    rw [mem_memberRobots_iff hw]
    rintro ⟨m, hm, undecided, listed, robot⟩
    exact away m hm undecided (of_decide_eq_true listed) robot
  · rintro ⟨m, ⟨hm, undecided, unlisted, line⟩, armed⟩
    have go : s.membersStarted.hasArmed l = true := (hasArmed_started wave stay).2 ⟨m, hm, ⟨undecided, unlisted⟩, line, armed⟩
    refine ⟨⟨w.number, s.membersStarted.excludedDrop l⟩, ?_, rfl, fun m hm flight only => ?_, fun none => ?_⟩
    · rw [vLines, Line.goSet, if_pos ⟨go, by rw [lines]; exact up⟩]
    · exact excludedDrop_late wave hm.1 ⟨hm.2.1, hm.2.2.1⟩ hm.2.2.2 flight
        fun q hq stays line => only q ⟨hq, stays.1, stays.2, line⟩
    · exact excludedDrop_none wave fun q hq stays line => none q ⟨hq, stays.1, stays.2, line⟩
  · intro none
    rw [vLines, Line.goSet, if_neg, lines]
    rintro ⟨armed, -⟩
    obtain ⟨m, hm, stays, line, armed⟩ := (hasArmed_started wave stay).1 armed
    exact none m ⟨hm, stays.1, stays.2, line⟩ armed
  · rw [vEvents]
    by_cases raised : ∃ m ∈ w.members, m.outcome = .none ∧ (m.delivery = .listed ∨ m.delivery = .inFlight)
    · rw [if_neg (fun h => quiet.1 h raised), if_pos raised, Events.get_put, if_pos rfl, events _ (by decide)]
    · rw [if_pos (quiet.2 raised), if_neg raised, events _ (by decide)]
  · rw [vEvents]
    refine ⟨?_, fun c late conflict => ?_⟩
    · split
      · exact masks
      · exact masks
    · split
      · exact events c conflict
      · rw [Events.get_put, if_neg (Ne.symm late)]; exact events c conflict

/-! ### A mark -/

/-- A mark starts no wave when none waits for it (R80). -/
theorem waveMark_kept (h : ∀ w, s.wave = some w → w.state = .arming ∨ w.state = .armed → w.startMark ≠ s.epoch.counter) :
    waveMark s = s := by
  unfold waveMark
  split
  · rfl
  · rename_i w hw
    exact if_neg fun k => h w hw k.1 k.2

/-- A mark starts the wave that waits for it (R80). -/
theorem waveMark_starts (hw : s.wave = some w) (waits : w.state = .arming ∨ w.state = .armed)
    (mark : w.startMark = s.epoch.counter) : waveMark s = doneTest (s.waveStarted w) := by
  unfold waveMark
  rw [hw]
  exact (if_pos ⟨waits, mark⟩).trans (startWave_eq s w)

theorem takeMark_eq (s : State) (time : Nat) : takeMark s time = waveMark (s.marked time) := rfl

theorem endsIn_waveMark {c : Instr} {time : Nat} {t : State} (run : exec c s = .next (takeMark t time)) (hw : t.wave = some w)
    (waits : w.state = .arming ∨ w.state = .armed) (mark : w.startMark = t.epoch.counter + 1)
    (distinct : (w.members.map Member.robot).Nodup) : EndsIn c s fun u => WaveStarts (t.marked time) u w := by
  rw [takeMark_eq, waveMark_starts (s := t.marked time) hw waits mark] at run
  exact endsIn_doneTest run (waveStarted_starts (s := t.marked time) hw distinct)

theorem exec_epochMark (running : s.resetLow = false) : exec .epochMark s = .next (takeMark
    (s.clock (BitVec.ofNat 64 (s.epoch.tLast + s.epoch.running.toNat))) (s.epoch.tLast + s.epoch.running.toNat)) :=
  running_run running expire

/-- Settles O36: the expiry is a mark that no wave waits for. -/
theorem expiryTakesAMark : Obligations.ExpiryTakesAMark := by
  intro s running apart
  rw [exec_epochMark running, takeMark_eq, waveMark_kept]
  · rfl
  · exact apart

/-- Settles O37: the expiry is the mark that the wave waits for. -/
theorem waveStartsAtItsMark : Obligations.WaveStartsAtItsMark :=
  fun _ _ running hw waits mark distinct => endsIn_waveMark (exec_epochMark running) hw waits mark distinct

end Sys2Proof.Machine
end

section
/-!
O38: an EPOCH pulse.
-/

namespace Sys2Proof.Machine

variable {s : State} {t : Time} {d : Int} {lock : LockStatus} {mode : EpochMode}

/-! ### A pulse measured, marked or re-phased -/

/-- The state in which a pulse has been measured: its offset, lock status and mode are written, and a slip is raised (R145, R150). -/
def State.measured (s : State) (t : Time) (d : Int) (lock : LockStatus) (mode : EpochMode) : State :=
  { s with
    timer := t
    epoch := { s.epoch with
      mode := mode, lock := lock
      offset := BitVec.ofInt 32 (clampInt (-((s.epoch.running.toNat : Int) / 2)) ((s.epoch.running.toNat : Int) / 2) d) }
    events := if lock = .slipped then s.events.put .epochSlip ((s.events.get .epochSlip).raised
      (match s.wave with | none => 0 | some w => if w.state = .done then 0 else w.number)) else s.events }

theorem clock_of_le (h : s.timer.toNat ≤ t.toNat) : s.clock t = { s with timer := t } := by
  unfold State.clock
  split
  · rfl
  · rename_i later
    rw [show s.timer = t by bv_omega]

theorem activeWaveNumber_eq (s : State) : s.activeWaveNumber =
    match s.wave with | none => 0 | some w => if w.state = .done then 0 else w.number := by
  unfold State.activeWaveNumber
  cases s.wave with
  | none => rfl
  | some w => cases h : w.state <;> simp [h, WaveState.active]

/-- A pulse by the action it is taken with (R145). -/
theorem takePulse_eq (h : s.timer.toNat ≤ t.toNat) {a : PulseAction}
    (result : pulseResult s.epoch t.toNat = ⟨a, d, lock, mode⟩) : takePulse (s.clock t) =
      match a with
      | .measure => s.measured t d lock mode
      | .mark => takeMark (s.measured t d lock mode) t.toNat
      | .rePhase => rePhase (s.measured t d lock mode) t.toNat := by
  have measured (epoch : Epoch) : (if lock = .slipped then ({ s with timer := t, epoch := epoch } : State).raise .epochSlip
      s.activeWaveNumber else { s with timer := t, epoch := epoch }) = { s with
        timer := t, epoch := epoch, events := if lock = .slipped then s.events.put .epochSlip
          ((s.events.get .epochSlip).raised s.activeWaveNumber) else s.events } := by
    split <;> rfl
  have active (timer : Time) : ({ s with timer := timer } : State).activeWaveNumber = s.activeWaveNumber := rfl
  rw [clock_of_le h]
  unfold takePulse
  simp only [State.now, result, active, measured]
  rw [activeWaveNumber_eq]
  cases a <;> rfl

section

variable (running : s.resetLow = false) (h : s.timer.toNat ≤ t.toNat)
include running h

theorem exec_pulse {a : PulseAction} (result : pulseResult s.epoch t.toNat = ⟨a, d, lock, mode⟩) :
    exec (.epochPulse t) s = .next (match a with
      | .measure => s.measured t d lock mode
      | .mark => takeMark (s.measured t d lock mode) t.toNat
      | .rePhase => rePhase (s.measured t d lock mode) t.toNat) :=
  (running_run running fun s => takePulse (s.clock t)).trans (congrArg _ (takePulse_eq h result))

/-- A pulse taken as a mark starts the wave that waits for it, and leaves any other (R80, R144). -/
theorem pulse_marks (result : pulseResult s.epoch t.toNat = ⟨.mark, d, lock, mode⟩) :
    ((∀ w, s.wave = some w → w.state = .arming ∨ w.state = .armed → w.startMark ≠ s.epoch.counter + 1) →
      exec (.epochPulse t) s = .next ((s.measured t d lock mode).marked t.toNat)) ∧
    ∀ w, s.wave = some w → w.state = .arming ∨ w.state = .armed → w.startMark = s.epoch.counter + 1 →
      (w.members.map Member.robot).Nodup →
      EndsIn (.epochPulse t) s fun v => WaveStarts ((s.measured t d lock mode).marked t.toNat) v w := by
  have run : exec (.epochPulse t) s = .next (takeMark (s.measured t d lock mode) t.toNat) := exec_pulse running h result
  refine ⟨fun apart => ?_, fun w hw waits mark distinct =>
    endsIn_waveMark (t := s.measured t d lock mode) run hw waits mark distinct⟩
  rw [run, takeMark_eq, waveMark_kept]
  exact apart

theorem pulse_rePhases (result : pulseResult s.epoch t.toNat = ⟨.rePhase, d, lock, mode⟩) :
    exec (.epochPulse t) s = .next { s.measured t d lock mode with
      epoch := { (s.measured t d lock mode).epoch with tLast := t.toNat, running := s.epoch.period } } :=
  exec_pulse running h result

end

/-! ### The windows of a pulse -/

section

variable (e : Epoch) (n : Nat)

/-- The effective window, over the integers (R145). -/
theorem effectiveWindow_cast : ((e.effectiveWindow : Nat) : Int) =
    min (e.window.toNat : Int) ((e.running.toNat : Int) / 8) := by
  unfold Epoch.effectiveWindow; push_cast; rfl

theorem inEarly_iff : e.inEarly n = true ↔ (e.tLast : Int) + e.running.toNat -
    min (e.window.toNat : Int) ((e.running.toNat : Int) / 8) ≤ n ∧ (n : Int) ≤ (e.tLast : Int) + e.running.toNat := by
  simp only [Epoch.inEarly, Bool.and_eq_true, decide_eq_true_eq, effectiveWindow_cast, Epoch.tNext]
  exact and_congr Iff.rfl (decide_eq_true_iff.trans Int.ofNat_le.symm)

theorem inLate_iff : e.inLate n = true ↔ (e.tLast : Int) ≤ n ∧
    (n : Int) ≤ (e.tLast : Int) + min (e.window.toNat : Int) ((e.running.toNat : Int) / 8) := by
  simp only [Epoch.inLate, Bool.and_eq_true, decide_eq_true_eq, ← effectiveWindow_cast]
  omega

theorem laterHalf_iff : e.laterHalf n = true ↔ (e.running.toNat : Int) ≤ 2 * ((n : Int) - e.tLast) := decide_eq_true_iff

theorem earlierHalf_iff : e.earlierHalf n = true ↔ 2 * ((n : Int) - e.tLast) ≤ e.running.toNat := decide_eq_true_iff

/-- An offset in the window is ALIGNED (R146). -/
theorem natAbs_le_window (d : Int) : d.natAbs ≤ e.effectiveWindow ↔
    -min (e.window.toNat : Int) ((e.running.toNat : Int) / 8) ≤ d ∧
      d ≤ min (e.window.toNat : Int) ((e.running.toNat : Int) / 8) := by
  rw [← effectiveWindow_cast]; omega

end

/-- Settles O38, by the mode held and the window and half of the period in which the pulse falls. -/
theorem pulseIsTaken : Obligations.PulseIsTaken := by
  intro s t running h
  have free (mode : s.epoch.mode = .free) : pulseResult s.epoch t.toNat = pulseFree s.epoch t.toNat := by
    rw [pulseResult, mode]
  have track (mode : s.epoch.mode = .track) : pulseResult s.epoch t.toNat = pulseTrack s.epoch t.toNat := by
    rw [pulseResult, mode]
  have once (mode : s.epoch.mode = .once) : pulseResult s.epoch t.toNat = pulseOnce s.epoch t.toNat := by
    rw [pulseResult, mode]
  refine ⟨fun mode => ?_, fun mode => ⟨fun early => ?_, fun early late => ?_, fun early late half => ?_,
    fun early late half => ?_⟩, fun mode => ⟨fun half => ?_, fun half => ?_⟩⟩
  · refine exec_pulse (a := .measure) running h ((free mode).trans ?_)
    simp only [pulseFree, earlierHalf_iff, natAbs_le_window]
    rfl
  · refine pulse_marks running h ((track mode).trans ?_)
    exact if_pos ((inEarly_iff ..).2 early)
  · refine pulse_rePhases running h ((track mode).trans ?_)
    exact (if_neg (mt (inEarly_iff ..).1 early)).trans (if_pos ((inLate_iff ..).2 late))
  · refine pulse_marks running h ((track mode).trans ?_)
    exact (if_neg (mt (inEarly_iff ..).1 early)).trans ((if_neg (mt (inLate_iff ..).1 late)).trans
      (if_pos ((laterHalf_iff ..).2 half)))
  · refine pulse_rePhases running h ((track mode).trans ?_)
    exact (if_neg (mt (inEarly_iff ..).1 early)).trans ((if_neg (mt (inLate_iff ..).1 late)).trans
      (if_neg (mt (laterHalf_iff ..).1 (Int.not_le.2 half))))
  · refine pulse_marks running h ((once mode).trans ?_)
    exact if_pos ((laterHalf_iff ..).2 half)
  · refine pulse_rePhases running h ((once mode).trans ?_)
    exact if_neg (mt (laterHalf_iff ..).1 (Int.not_le.2 half))

end Sys2Proof.Machine
end

section
/-!
O44: a line that goes DOWN.
-/

namespace Sys2Proof.Machine

variable {s u : State} {r q : RobotNo} {m : Member} {w : Wave} {l : LineNo} {z : ZoneId}

/-! ### Zones while several robots become UNCERTAIN -/

theorem becomeUncertain_blocked (h : (s.zone z).holder = .blocked) : ((s.becomeUncertain q).zone z).holder = .blocked := by
  obtain ⟨u, robots, zone⟩ := zone_becomeUncertain s q z
  have held : ¬(s.zone z).heldBy q = true := by simp [Zone.heldBy, h]
  rw [zone, if_neg held]
  dsimp only
  split
  · rename_i names
    rcases settled_names_uncertain u u.undecidedMembers (r := q) (by simp [robots]) names z.val with hb | ⟨p, -, -, hp, -⟩
    · exact hb
    · rw [h] at hp; cases hp
  · exact h

/-- A zone held MOVING by another robot stays so, or is BLOCKED. -/
theorem becomeUncertain_moving (h : (s.zone z).holder = .moving r) (other : q ≠ r) :
    ((s.becomeUncertain q).zone z).holder = .blocked ∨ ((s.becomeUncertain q).zone z).holder = .moving r := by
  obtain ⟨u, robots, zone⟩ := zone_becomeUncertain s q z
  have held : ¬(s.zone z).heldBy q = true := by simp [Zone.heldBy, h, other.symm]
  rw [zone, if_neg held]
  dsimp only
  split
  · rename_i names
    rcases settled_names_uncertain u u.undecidedMembers (r := q) (by simp [robots]) names z.val with hb | ⟨p, -, hp, before, -⟩
    · exact .inl hb
    · rw [h] at before; rw [hp, before]; exact .inr rfl
  · exact .inr h

/-! ### The members of the line (R113) -/

theorem loseMember_zone (s : State) (r : RobotNo) (z : ZoneId) : ∃ t : State, t.zone z = s.zone z ∧
    (s.loseMember r).zone z = (t.becomeUncertain r).zone z :=
  ⟨_, (conclude_zone ..).trans (zone_modMember ..), rfl⟩

theorem loseMember_blocked (h : (s.zone z).holder = .blocked) : ((s.loseMember q).zone z).holder = .blocked := by
  obtain ⟨t, same, zone⟩ := loseMember_zone s q z
  rw [zone]
  exact becomeUncertain_blocked (by rw [same]; exact h)

/-- A zone held MOVING by a robot that is lost is BLOCKED (R54). -/
theorem foldl_loseMember_moving (rs : List RobotNo) (hr : r ∈ rs) (h : (s.zone z).holder = .moving r) :
    ((rs.foldl State.loseMember s).zone z).holder = .blocked := by
  refine foldl_establishes (P := fun t => (t.zone z).holder = .blocked)
    (I := fun t => (t.zone z).holder = .blocked ∨ (t.zone z).holder = .moving r) hr (fun s q h => ?_) (fun s h => ?_)
    (fun s q => loseMember_blocked) (.inr h)
  · rcases h with blocked | moving
    · exact .inl (loseMember_blocked blocked)
    · obtain ⟨t, same, zone⟩ := loseMember_zone s q z
      rw [zone]
      by_cases here : q = r
      · exact .inl (becomeUncertain_held t q (by simp [Zone.heldBy, same, moving, here]))
      · exact becomeUncertain_moving (by rw [same]; exact moving) here
  · rcases h with blocked | moving
    · exact loseMember_blocked blocked
    · obtain ⟨t, same, zone⟩ := loseMember_zone s r z
      rw [zone]
      exact becomeUncertain_held t r (by simp [Zone.heldBy, same, moving])

/-- The lists of a line as its members are lost: the normal list stays, and the poll cycle only shrinks. -/
theorem foldl_loseMember_lists (rs : List RobotNo) (s : State) (k : LineNo) :
    ((rs.foldl State.loseMember s).line k).normal = (s.line k).normal ∧
      ((rs.foldl State.loseMember s).line k).cycle.Sublist (s.line k).cycle := by
  induction rs generalizing s with
  | nil => exact ⟨rfl, List.Sublist.refl _⟩
  | cons q rs ih =>
    obtain ⟨normal, cycle⟩ := ih (s.loseMember q)
    have line : (s.loseMember q).line k = _ := (concludeUncertain_line k).trans (conclude_line ..)
    rw [line_modMember] at line
    rw [List.foldl_cons, normal]
    refine ⟨by rw [line]; split <;> rfl, cycle.trans ?_⟩
    rw [line]
    split
    · exact List.filter_sublist
    · exact List.Sublist.refl _

theorem ChangesAll.members {x : Member → Member} {y : Robot → Robot} {rs : List RobotNo} (h : ChangesAll x y rs s u) :
    u.members = s.members.map (changeIn x rs) := by
  unfold State.members
  rw [h.wave]
  cases s.wave <;> rfl

/-- A change that decides leaves its robots no undecided member. -/
theorem ChangesAll.member?_none {x : Member → Member} {y : Robot → Robot} {rs : List RobotNo} (h : ChangesAll x y rs s u)
    (decides : ∀ m, (x m).outcome ≠ .none) (hr : r ∈ rs) : u.member? r = none := by
  rw [member?_eq_find, h.members, List.find?_eq_none]
  intro m hm
  obtain ⟨q, -, rfl⟩ := List.mem_map.1 hm
  unfold changeIn
  split
  · simp [Member.undecided, decides]
  · rename_i other
    intro found
    simp only [Member.undecided, Bool.and_eq_true, decide_eq_true_eq] at found
    exact other ⟨by rw [found.2]; exact hr, found.1⟩

/-- A member as the fall of its line leaves it (R113). -/
def Member.fallen (m : Member) : Member :=
  (if m.delivery.unsettled then { m with delivery := .closed } else m).decided .lost .none

theorem fallen_eq (m : Member) : m.fallen = { m.decided .lost .none with
    delivery := if m.delivery = .accepted ∧ m.goTime ≠ none then .accepted else .closed } := by
  unfold Member.fallen Member.decided
  cases delivery : m.delivery <;> by_cases go : m.goTime = none <;> simp [Delivery.unsettled, go, delivery]

theorem fallen_fallen (m : Member) : m.fallen.fallen = m.fallen := by
  simp only [fallen_eq]
  by_cases ran : m.delivery = .accepted ∧ m.goTime ≠ none <;> simp [Member.decided, ran]

theorem fallen_robot (m : Member) : m.fallen.robot = m.robot := by rw [fallen_eq]; rfl

theorem foldl_loseMember (rs : List RobotNo) (s : State) :
    ChangesAll Member.fallen (Robot.losesWith .lost .none) rs s (rs.foldl State.loseMember s) := by
  refine .foldl (y := Robot.losesWith .lost .none) fallen_robot fallen_fallen (fun _ => rfl) (fun s r => ?_) rs s
  exact (ChangesAll.modMember r fun m => if m.delivery.unsettled then { m with delivery := .closed } else m).comp
    (.concludeUncertain _ r .lost .none) fun m => by split <;> exact ⟨rfl, rfl⟩

/-! ### The line (R134) -/

/-- A line that goes DOWN at the end of one more wait in silence. -/
def Line.downed (e : Line) : Line :=
  { e with
    silence := e.silence + 1, counters := { e.counters with timeouts := countUp e.counters.timeouts }, state := .down
    txn := none, urgent := [], normal := [], cycle := [], haltPending := false, goPending := none }

/-- Line `l` DOWN, before its members are decided. -/
def State.downed (s : State) (l : LineNo) (t : Time) : State :=
  ((s.clock t).modLine l Line.downed).raise .lineDown (halfOf l.val)

theorem exec_silence_down {t : Time} {x : Txn} {f : FrameKind} {since : Nat} (ex : Exchanging s l x f since)
    (waiting : x.phase = .waiting f since) (silent : since + answerLimit x.timing f ≤ (s.clock t).now)
    (limit : x.timing.downLimit.toNat ≤ (s.line l).silence + 1) :
    exec (.answerWaitSilence l t) s = .next (loseMembers (s.downed l t) l) := by
  refine (running_run ex.running fun s => waitSilence (s.clock t) l).trans (congrArg _ ?_)
  unfold waitSilence
  rw [show (s.clock t).line l = s.line l from rfl, ex.txn]
  dsimp only
  rw [waiting]
  dsimp only
  rw [if_pos silent, silentWait]
  refine (if_pos ?_).trans ?_
  · rw [State.countSilence, line_modLine, if_pos rfl]
    exact limit
  · rw [lineDown, State.countSilence, modLine_modLine]
    rfl

theorem alike_downed (s : State) (l : LineNo) (t : Time) : Alike s (s.downed l t) :=
  (Alike.clock t).trans ((Alike.modLine l _).trans (.raise .lineDown _))

/-- Settles O44: the line is emptied, its members fall one after another, and the wave goes on. -/
theorem silenceTakesTheLineDown : Obligations.SilenceTakesTheLineDown := by
  intro s l t x f since ex waiting silent limit
  have run := exec_silence_down ex waiting silent limit
  have alike := alike_downed s l t
  refine endsIn_doneTest run ?_
  have fallen := foldl_loseMember ((s.downed l t).memberRobots fun m => decide (m.line = l)) (s.downed l t)
  have lists := foldl_loseMember_lists ((s.downed l t).memberRobots fun m => decide (m.line = l)) (s.downed l t) l
  have zones (r : RobotNo) (z : ZoneId) := foldl_loseMember_moving (s := s.downed l t) (r := r) (z := z)
    ((s.downed l t).memberRobots fun m => decide (m.line = l))
  have down : (s.downed l t).line l = (s.line l).downed := (line_modLine (s.clock t) l l Line.downed).trans (if_pos rfl)
  have events : (s.downed l t).events = s.events.put .lineDown ((s.events.get .lineDown).raised (halfOf l.val)) := rfl
  have falls (r : RobotNo) : r ∈ (s.downed l t).memberRobots (fun m => decide (m.line = l)) ↔
      ∃ m, (m ∈ s.members ∧ m.outcome = .none ∧ m.line = l) ∧ m.robot = r := by
    simp only [State.memberRobots, State.undecidedMembers, List.mem_map, List.mem_filter, alike.members, Member.undecided,
      decide_eq_true_eq, and_assoc]
  have chosen (w : Wave) (hw : s.wave = some w) (distinct : (w.members.map Member.robot).Nodup) (m : Member)
      (hm : m ∈ w.members) := changeIn_memberRobots (s := s.downed l t) (p := fun m => decide (m.line = l))
    (alike.wave.trans hw) distinct Member.fallen hm
  unfold loseMembers at run
  generalize (s.downed l t).memberRobots (fun m => decide (m.line = l)) = rs at *
  generalize fold : rs.foldl State.loseMember (s.downed l t) = v at *
  refine ⟨?_, ?_, ?_, fun m falling => ⟨?_, ?_, fun z held => ?_⟩, fun r away => ?_, armTest_tested v, fun w hw distinct => ?_⟩
  · rw [armTest_line, fallen.lines, lists.1, down]
    rw [down] at lists
    exact ⟨rfl, rfl, rfl, rfl, List.sublist_nil.1 lists.2, rfl, rfl⟩
  · rw [armTest_events, fallen.events _ (by decide), events, Events.get_put, if_pos rfl]
  · rw [armTest_events, fallen.events _ (by decide), events, Events.get_put, if_neg (by decide)]
  · rw [armTest_robot, fallen.robots, if_pos ((falls _).2 ⟨m, falling, rfl⟩), alike.robot]
    rfl
  · rw [armTest_member?]
    exact fallen.member?_none (fun m => by rw [fallen_eq]; nofun) ((falls _).2 ⟨m, falling, rfl⟩)
  · rw [armTest_zone]
    exact zones _ z ((falls _).2 ⟨m, falling, rfl⟩) (by rw [alike.zone]; exact held)
  · rw [armTest_robot, fallen.robots, if_neg, alike.robot]
    rw [falls]
    rintro ⟨m, falling, robot⟩
    exact away m falling robot
  · obtain ⟨state, wave, tested⟩ := armTest_wave (fallen.wave.trans (by rw [alike.wave, hw]; rfl))
    refine ⟨state, wave.trans (congrArg some (congrArg (fun ms => { w with state := state, members := ms }) ?_)), ?_⟩
    · refine List.map_congr_left fun m hm => (chosen w hw distinct m hm).trans ?_
      simp only [decide_eq_true_eq, fallen_eq]
    · rw [armTest_members, fallen.members, alike.members, members_of_wave hw]
      exact tested.imp id fun ⟨arming, armed, settled⟩ => ⟨arming, armed, settled⟩

end Sys2Proof.Machine
end

section
/-!
O30: an ABORT.
-/

namespace Sys2Proof.Machine

variable {s u : State} {r q : RobotNo} {m : Member} {w : Wave} {l : LineNo}

/-! ### The members made STOPPING (R88) -/

/-- A member made STOPPING by an ABORT, waiting for its first READ (R88, R105). -/
def Member.stopped (m : Member) : Member := { m with deadline := none, stop := .read 1 }

theorem offerRead_changes (s : State) (r : RobotNo) (a b : Bool) {rs : List RobotNo} :
    ChangesAll id id rs s (s.offerRead r a b) := .modLine _ fun e => by split <;> rfl

theorem abortMember_changes (s : State) (r : RobotNo) :
    ChangesAll Member.stopped (fun b => { b with slot := .stopping }) [r] s (s.abortMember r) :=
  (((ChangesAll.modRobot r fun b => { b with slot := .stopping }).comp (.leaveCycle _ r) fun _ => ⟨rfl, rfl⟩).comp
    (.modMember r Member.stopped) fun _ => ⟨rfl, rfl⟩).comp (offerRead_changes _ r false true) fun _ => ⟨rfl, rfl⟩

theorem foldl_abortMember (rs : List RobotNo) (s : State) :
    ChangesAll Member.stopped (fun b => { b with slot := .stopping }) rs s (rs.foldl State.abortMember s) :=
  .foldl (x := Member.stopped) (y := fun b => { b with slot := .stopping }) (fun _ => rfl) (fun _ => rfl) (fun _ => rfl)
    abortMember_changes rs s

theorem stopMember_lineOf (s : State) (r : RobotNo) (ph : StopPhase) :
    (s.stopMember r ph).lineOf r = (s.robot r).static.line := by
  have robot : (s.stopMember r ph).robot r = { s.robot r with slot := .stopping } := by
    rw [State.stopMember, robot_modMember]
    show (s.setSlot r .stopping).robot r = _
    rw [State.setSlot, robot_modRobot, if_pos rfl]
  rw [State.lineOf, robot]

/-- The line of a member made STOPPING: it leaves the poll cycle, and its READ is listed (R88, R95, R123). -/
theorem abortMember_line (s : State) (r : RobotNo) (k : LineNo) : (s.abortMember r).line k =
    if (s.robot r).static.line = k then { s.line k with
      cycle := (s.line k).cycle.filter fun p => p.robot ≠ r
      normal := if (s.line k).state = .down then (s.line k).normal else offerReadTo (s.line k).normal r false true }
    else s.line k := by
  have line : (s.setSlot r .stopping).lineOf r = (s.robot r).static.line := by
    rw [State.lineOf, State.setSlot, robot_modRobot, if_pos rfl]
  have stopped : (s.stopMember r (.read 1)).line k = if (s.robot r).static.line = k then
      { s.line k with cycle := (s.line k).cycle.filter fun p => p.robot ≠ r } else s.line k := by
    rw [State.stopMember, line_modMember, State.leaveCycle, line_modLine, line]
    rfl
  rw [State.abortMember, State.offerRead, line_modLine, stopMember_lineOf, stopped]
  by_cases here : (s.robot r).static.line = k
  · simp only [if_pos here]
    split <;> rfl
  · simp only [if_neg here]

/-- A list holds a read-back READ of robot `r`. -/
def HasReadBack (n : List NormalEntry) (r : RobotNo) : Prop := ∃ x ∈ n, x.robot = r ∧ x.readBack = true

theorem hasReadBack_offerRead (n : List NormalEntry) (r : RobotNo) : HasReadBack (offerReadTo n r false true) r := by
  unfold offerReadTo
  split
  · rename_i listed
    obtain ⟨x, hx, robot⟩ := List.any_eq_true.1 listed
    have here : x.robot = r := of_decide_eq_true robot
    exact ⟨_, List.mem_map.2 ⟨x, hx, if_pos here⟩, here, Bool.or_true _⟩
  · exact ⟨_, List.mem_append_right _ (List.mem_singleton_self _), rfl, rfl⟩

theorem HasReadBack.offerRead {n : List NormalEntry} (h : HasReadBack n r) (q : RobotNo) :
    HasReadBack (offerReadTo n q false true) r := by
  obtain ⟨x, hx, robot, readBack⟩ := h
  unfold offerReadTo
  split
  · refine ⟨_, List.mem_map.2 ⟨x, hx, rfl⟩, ?_⟩
    split
    · exact ⟨robot, Bool.or_true _⟩
    · exact ⟨robot, readBack⟩
  · exact ⟨x, List.mem_append_left _ hx, robot, readBack⟩

theorem abortMember_static (s : State) (r q : RobotNo) : ((s.abortMember r).robot q).static = (s.robot q).static := by
  rw [(abortMember_changes s r).robots]
  split <;> rfl

/-- A member made STOPPING is out of its line's poll cycle (R95). -/
theorem foldl_abortMember_cycle {rs : List RobotNo} (hr : r ∈ rs) :
    ∀ p ∈ ((rs.foldl State.abortMember s).line (s.robot r).static.line).cycle, p.robot ≠ r := by
  refine foldl_establishes (P := fun t => ∀ p ∈ (t.line (s.robot r).static.line).cycle, p.robot ≠ r)
    (I := fun t => (t.robot r).static = (s.robot r).static) hr (fun t q h => (abortMember_static t q r).trans h)
    (fun t h => ?_) (fun t q h => ?_) rfl
  · rw [abortMember_line, if_pos (by rw [h])]
    exact fun p hp => of_decide_eq_true (List.mem_filter.1 hp).2
  · rw [abortMember_line]
    split
    · exact fun p hp => h p (List.mem_filter.1 hp).1
    · exact h

/-- A member made STOPPING has its READ listed on a line that is not DOWN (R88, R123). -/
theorem foldl_abortMember_read {rs : List RobotNo} (hr : r ∈ rs) (up : (s.line (s.robot r).static.line).state ≠ .down) :
    HasReadBack ((rs.foldl State.abortMember s).line (s.robot r).static.line).normal r := by
  refine foldl_establishes (P := fun t => HasReadBack (t.line (s.robot r).static.line).normal r)
    (I := fun t => (t.robot r).static = (s.robot r).static ∧ (t.line (s.robot r).static.line).state ≠ .down) hr
    (fun t q h => ⟨(abortMember_static t q r).trans h.1, ?_⟩) (fun t h => ?_) (fun t q h => ?_) ⟨rfl, up⟩
  · rw [(abortMember_changes t q).lines]
    exact h.2
  · rw [abortMember_line, if_pos (by rw [h.1])]
    dsimp only
    rw [if_neg h.2]
    exact hasReadBack_offerRead _ r
  · rw [abortMember_line]
    split
    · dsimp only
      split
      · exact h
      · exact h.offerRead q
    · exact h

/-! ### The abort of a wave (R87, R88) -/

/-- A member whose DELIVER waits, undecided. -/
def Member.waits (m : Member) : Bool := decide (m.outcome = .none) && decide (m.delivery = .listed)

/-- A member that an ABORT leaves undecided. -/
def Member.remains (m : Member) : Bool := decide (m.outcome = .none) && decide (m.delivery ≠ .listed)

/-- A member that an ABORT makes STOPPING (R88). -/
def State.halts (s : State) (m : Member) : Bool := m.remains && s.abortStops m

/-- A member as an ABORT leaves it (R87, R88). -/
def State.abortedMember (s : State) (m : Member) : Member :=
  if m.waits then ChangesAll.missed m else if s.halts m then m.stopped else m

theorem waits_of_remains (h : m.remains = true) : m.waits = false := by
  simp only [Member.remains, Bool.and_eq_true, decide_eq_true_eq] at h
  simp [Member.waits, h.2]

theorem abortedMember_waits (h : m.waits = true) : s.abortedMember m = ChangesAll.missed m := if_pos h

theorem abortedMember_halts (h : s.halts m = true) : s.abortedMember m = m.stopped := by
  rw [State.abortedMember, waits_of_remains (Bool.and_eq_true_iff.1 h).1, if_neg (by decide), if_pos h]

theorem abortedMember_stands (unlisted : m.waits = false) (stands : s.halts m = false) : s.abortedMember m = m := by
  rw [State.abortedMember, unlisted, stands]; rfl

/-- The wave ABORTING with no GO pending, and its members LISTED missed (R87). -/
def State.abortMissed (s : State) : State :=
  (s.memberRobots Member.isListed).foldl State.missListed
    ((s.modWave fun w => { w with state := .aborting, chainRemaining := 0 }).modLines fun e => { e with goPending := none })

/-- The HALT broadcast set on the lines with an undecided member (R87). -/
def State.abortHalted (s : State) : State := allLines.foldl State.haltLine s.abortMissed

/-- The robots that the ABORT makes STOPPING (R88). -/
def State.abortRobots (s : State) : List RobotNo := s.abortHalted.memberRobots s.abortHalted.abortStops

theorem abortWave_eq (s : State) : abortWave s =
    (s.abortRobots.foldl State.abortMember s.abortHalted, (s.memberRobots Member.isListed).length, s.abortRobots.length) := rfl

/-- A member as an ABORT leaves it before it stops any (R87). -/
def Member.missedIfWaits (m : Member) : Member := if m.waits then ChangesAll.missed m else m

theorem missedIfWaits_undecided (m : Member) : m.missedIfWaits.undecided = m.remains := by
  unfold Member.missedIfWaits Member.waits Member.remains Member.undecided
  by_cases undecided : m.outcome = .none <;> by_cases listed : m.delivery = .listed <;>
    simp [undecided, listed, ChangesAll.missed, Member.decided]

theorem missedIfWaits_of_remains (h : m.remains = true) : m.missedIfWaits = m := by
  rw [Member.missedIfWaits, waits_of_remains h]; rfl

/-- The undecided members once those LISTED are missed. -/
theorem undecided_missed (h : u.members = w.members.map Member.missedIfWaits) :
    u.undecidedMembers = w.members.filter Member.remains := by
  rw [State.undecidedMembers, h, List.filter_map,
    show Member.undecided ∘ Member.missedIfWaits = Member.remains from funext missedIfWaits_undecided]
  exact (List.map_congr_left fun m hm => missedIfWaits_of_remains (List.mem_filter.1 hm).2).trans (List.map_id _)

section

variable (hw : s.wave = some w) (distinct : (w.members.map Member.robot).Nodup)
include hw distinct

/-- The state once the members LISTED are missed, part by part. -/
theorem abortMissed_spec : let u := s.abortMissed
    SameFrame s u ∧ u.wave = some { w with
        state := .aborting, chainRemaining := 0, members := w.members.map Member.missedIfWaits } ∧
      (∀ q, u.robot q = if q ∈ s.memberRobots Member.isListed then (s.robot q).restsWith .missed .none else s.robot q) ∧
      (∀ k, u.line k = { s.line k with normal := (u.line k).normal, cycle := (u.line k).cycle, goPending := none }) ∧
      ∀ c, c ≠ .zoneConflict → u.events.get c = s.events.get c := by
  have aborting := modWave_of_wave hw fun w => { w with state := .aborting, chainRemaining := 0 }
  have missed := ChangesAll.foldl_missListed
    ((s.modWave fun w => { w with state := .aborting, chainRemaining := 0 }).modLines fun e => { e with goPending := none })
    (s.memberRobots Member.isListed)
  dsimp only
  refine ⟨((SameFrame.modWave _).trans (.modLines _)).trans missed.frame, ?_, fun q => ?_, fun k => ?_, fun c hc => ?_⟩
  · rw [State.abortMissed, missed.wave, State.modLines_wave, aborting]
    refine congrArg some (congrArg (fun ms => { w with state := .aborting, chainRemaining := 0, members := ms })
      (List.map_congr_left fun m hm => (changeIn_memberRobots hw distinct ChangesAll.missed hm).trans ?_))
    simp only [Member.isListed, decide_eq_true_eq, Member.missedIfWaits, Member.waits, Bool.and_eq_true]
  · rw [State.abortMissed, missed.robots, aborting]; rfl
  · rw [State.abortMissed, missed.lines, line_modLines, aborting]; rfl
  · rw [State.abortMissed, missed.events c hc, aborting]; rfl

theorem hasUndecided_abortMissed (k : LineNo) :
    s.abortMissed.hasUndecided k = true ↔ ∃ m ∈ w.members, m.remains = true ∧ m.line = k := by
  obtain ⟨-, wave, -⟩ := abortMissed_spec hw distinct
  rw [State.hasUndecided, undecided_missed (members_of_wave wave)]
  simp [List.any_eq_true]

/-- The state once the HALTs are set too, part by part. -/
theorem abortHalted_spec : let u := s.abortHalted
    SameFrame s u ∧ u.wave = some { w with
        state := .aborting, chainRemaining := 0, members := w.members.map Member.missedIfWaits } ∧
      (∀ q, u.robot q = if q ∈ s.memberRobots Member.isListed then (s.robot q).restsWith .missed .none else s.robot q) ∧
      (∀ k, (u.line k).state = (s.line k).state ∧ (u.line k).goPending = none ∧ ((u.line k).haltPending = true ↔
        (s.line k).haltPending = true ∨
          (s.line k).state ≠ .down ∧ ∃ m ∈ w.members, m.remains = true ∧ m.line = k)) ∧
      ∀ c, c ≠ .zoneConflict → u.events.get c = s.events.get c := by
  obtain ⟨frame, wave, robots, lines, events⟩ := abortMissed_spec hw distinct
  obtain ⟨halted, set⟩ := foldl_haltLine s.abortMissed
  dsimp only
  refine ⟨frame.trans (by rw [State.abortHalted, halted]; rfl), by rw [State.abortHalted, halted]; exact wave,
    fun q => by rw [State.abortHalted, halted]; exact robots q, fun k => ?_,
    fun c hc => by rw [State.abortHalted, halted]; exact events c hc⟩
  rw [State.abortHalted, set, lines, Line.haltSet, ← hasUndecided_abortMissed hw distinct k]
  split
  · rename_i carries
    exact ⟨rfl, rfl, by simp [carries.1, show (s.line k).state ≠ .down from carries.2]⟩
  · rename_i none
    refine ⟨rfl, rfl, (or_iff_left fun h => none ⟨h.2, h.1⟩).symm⟩

theorem mem_listed_iff (hm : m ∈ w.members) : m.robot ∈ s.memberRobots Member.isListed ↔ m.waits = true := by
  simp only [mem_memberRobots_iff hw, Member.waits, Member.isListed, Bool.and_eq_true, decide_eq_true_eq]
  constructor
  · rintro ⟨q, hq, undecided, listed, robot⟩
    obtain rfl := List.inj_on_of_nodup_map distinct hq hm robot
    exact ⟨undecided, listed⟩
  · exact fun h => ⟨m, hm, h.1, h.2, rfl⟩

theorem robot_abortHalted (hm : m ∈ w.members) : s.abortHalted.robot m.robot =
    if m.waits = true then (s.robot m.robot).restsWith .missed .none else s.robot m.robot := by
  obtain ⟨-, -, robots, -⟩ := abortHalted_spec hw distinct
  rw [robots]
  simp only [mem_listed_iff hw distinct hm]

theorem abortRobots_eq : s.abortRobots = (w.members.filter s.halts).map Member.robot := by
  obtain ⟨-, wave, -⟩ := abortHalted_spec hw distinct
  rw [State.abortRobots, State.memberRobots, undecided_missed (members_of_wave wave), List.filter_filter]
  refine congrArg (List.map Member.robot) (List.filter_congr fun m hm => ?_)
  rw [State.halts, Bool.and_comm (s.abortHalted.abortStops m)]
  cases remains : m.remains with
  | false => rw [Bool.false_and, Bool.false_and]
  | true =>
    have same : s.abortHalted.robot m.robot = s.robot m.robot := by
      rw [robot_abortHalted hw distinct hm, waits_of_remains remains, if_neg (by decide)]
    simp only [State.abortStops, same]

theorem mem_abortRobots (hm : m ∈ w.members) : m.robot ∈ s.abortRobots ↔ s.halts m = true := by
  rw [abortRobots_eq hw distinct, List.mem_map]
  constructor
  · rintro ⟨q, hq, robot⟩
    obtain ⟨hq, halts⟩ := List.mem_filter.1 hq
    rwa [← List.inj_on_of_nodup_map distinct hq hm robot]
  · exact fun h => ⟨m, List.mem_filter.2 ⟨hm, h⟩, rfl⟩

/-- The wave ABORTING, part by part, before its completion test (R87, R88). -/
theorem abortWave_spec : let u := (abortWave s).1
    SameFrame s u ∧ u.wave = some { w with
        state := .aborting, chainRemaining := 0, members := w.members.map s.abortedMember } ∧
      (∀ m ∈ w.members, m.waits = true → u.robot m.robot = (s.robot m.robot).restsWith .missed .none) ∧
      (∀ m ∈ w.members, s.halts m = true → (u.robot m.robot).slot = .stopping ∧
        (∀ p ∈ (u.line (s.robot m.robot).static.line).cycle, p.robot ≠ m.robot) ∧
        ((s.line (s.robot m.robot).static.line).state ≠ .down →
          HasReadBack (u.line (s.robot m.robot).static.line).normal m.robot)) ∧
      (∀ m ∈ w.members, m.waits = false → s.halts m = false → u.robot m.robot = s.robot m.robot) ∧
      (∀ k, (u.line k).goPending = none ∧ ((u.line k).haltPending = true ↔ (s.line k).haltPending = true ∨
          (s.line k).state ≠ .down ∧ ∃ m ∈ w.members, m.remains = true ∧ m.line = k)) ∧
      ∀ c, c ≠ .zoneConflict → u.events.get c = s.events.get c := by
  obtain ⟨frame, wave, -, lines, events⟩ := abortHalted_spec hw distinct
  have halted {m : Member} (hm : m ∈ w.members) := robot_abortHalted hw distinct hm
  have chosen {m : Member} (hm : m ∈ w.members) := mem_abortRobots hw distinct hm
  have stops := foldl_abortMember s.abortRobots s.abortHalted
  have cycle (r : RobotNo) := foldl_abortMember_cycle (s := s.abortHalted) (rs := s.abortRobots) (r := r)
  have read (r : RobotNo) := foldl_abortMember_read (s := s.abortHalted) (rs := s.abortRobots) (r := r)
  have unlisted {m : Member} (h : s.halts m = true) : m.waits = false :=
    waits_of_remains (Bool.and_eq_true_iff.1 h).1
  rw [abortWave_eq]
  dsimp only
  refine ⟨frame.trans stops.frame, ?_, fun m hm waits => ?_, fun m hm halts => ?_, fun m hm other stands => ?_,
    fun k => ?_, fun c hc => (stops.events c hc).trans (events c hc)⟩
  · rw [stops.wave, wave]
    refine congrArg some (congrArg (fun ms => { w with state := .aborting, chainRemaining := 0, members := ms }) ?_)
    rw [List.map_map]
    refine List.map_congr_left fun m hm => ?_
    rw [Function.comp_apply, Member.missedIfWaits, State.abortedMember]
    by_cases waits : m.waits = true
    · rw [if_pos waits, if_pos waits]
      exact if_neg fun h => absurd h.2 (by simp [ChangesAll.missed, Member.decided])
    · have undecided : s.halts m = true → m.outcome = .none := fun h =>
        of_decide_eq_true (Bool.and_eq_true_iff.1 (Bool.and_eq_true_iff.1 h).1).1
      rw [if_neg waits, if_neg waits, changeIn]
      by_cases halts : s.halts m = true
      · rw [if_pos ⟨(chosen hm).2 halts, undecided halts⟩, if_pos halts]
      · rw [if_neg fun h => halts ((chosen hm).1 h.1), if_neg halts]
  · rw [stops.robots, if_neg, halted hm, if_pos waits]
    rw [chosen hm]
    intro halts
    rw [unlisted halts] at waits; cases waits
  · have mem := (chosen hm).2 halts
    have same : s.abortHalted.robot m.robot = s.robot m.robot := by rw [halted hm, unlisted halts, if_neg (by decide)]
    have stopCycle := cycle m.robot mem
    have stopRead := read m.robot mem
    rw [same] at stopCycle stopRead
    rw [stops.robots, if_pos mem]
    exact ⟨rfl, stopCycle, fun up => stopRead (by rw [(lines _).1]; exact up)⟩
  · rw [stops.robots, if_neg, halted hm, other, if_neg (by decide)]
    · rw [chosen hm, stands]; nofun
  · rw [stops.lines]
    exact (lines k).2

end

theorem abortListed_length (hw : s.wave = some w) : (s.memberRobots Member.isListed).length = (w.members.filter Member.waits).length := by
  rw [State.memberRobots, List.length_map, State.undecidedMembers, members_of_wave hw, List.filter_filter]
  refine congrArg (fun p => (w.members.filter p).length) (funext fun m => Bool.and_comm _ _)

theorem abortedMember_outcome (m : Member) : (s.abortedMember m).outcome = .none ↔ m.remains = true := by
  unfold State.abortedMember
  by_cases waits : m.waits = true
  · have other : m.remains = false := Bool.eq_false_iff.2 fun h => by rw [waits_of_remains h] at waits; cases waits
    rw [if_pos waits, other]
    exact iff_of_false (by simp [ChangesAll.missed, Member.decided]) (by decide)
  · have same : (if s.halts m = true then m.stopped else m).outcome = m.outcome := by split <;> rfl
    rw [if_neg waits, same]
    simp only [Member.waits, Member.remains, Bool.and_eq_true, decide_eq_true_eq] at waits ⊢
    exact ⟨fun h => ⟨h, fun listed => waits ⟨h, listed⟩⟩, fun h => h.1⟩

/-- The completion test after an ABORT: the wave is DONE, and its chain over, when no member remains undecided (R83, R84). -/
theorem doneTest_aborted (wave : u.wave = some { w with
    state := .aborting, chainRemaining := 0, members := w.members.map s.abortedMember }) : ∃ x : WaveState,
      SameFrame u (doneTest u) ∧ (doneTest u).robots = u.robots ∧ (doneTest u).lines = u.lines ∧
      (doneTest u).wave = some { w with state := x, chainRemaining := 0, members := w.members.map s.abortedMember } ∧
      x = (if ∃ m ∈ w.members, m.remains = true then .aborting else .done) ∧
      (doneTest u).events.get .waveDone = if ∃ m ∈ w.members, m.remains = true then u.events.get .waveDone
        else (u.events.get .waveDone).raised w.number := by
  by_cases remains : ∃ m ∈ w.members, m.remains = true
  · have undone : doneTest u = u := by
      refine doneTest_open fun v hv _ ended => ?_
      obtain rfl := Option.some.inj (hv.symm.trans wave)
      obtain ⟨m, hm, remains⟩ := remains
      have decided := undecided_eq_zero.1 ended _ (List.mem_map_of_mem hm)
      simp only [Member.undecided, decide_eq_false_iff_not] at decided
      exact decided ((abortedMember_outcome m).2 remains)
    rw [undone]
    exact ⟨.aborting, .refl u, rfl, rfl, wave, (if_pos remains).symm, (if_pos remains).symm⟩
  · have ended : doneTest u = ({ u with wave := some { w with
        state := .done, chainRemaining := 0, members := w.members.map s.abortedMember } } : State).raise .waveDone w.number := by
      have none : ({ w with
          state := .aborting, chainRemaining := 0, members := w.members.map s.abortedMember } : Wave).undecided = 0 := by
        refine undecided_eq_zero.2 fun q hq => ?_
        obtain ⟨m, hm, rfl⟩ := List.mem_map.1 hq
        exact decide_eq_false fun h => remains ⟨m, hm, (abortedMember_outcome m).1 h⟩
      unfold doneTest
      rw [wave]
      refine (if_pos ⟨.inr rfl, none⟩).trans ?_
      unfold waveDone
      rw [modWave_of_wave wave]
      rfl
    rw [ended]
    refine ⟨.done, rfl, rfl, rfl, rfl, (if_neg remains).symm, ?_⟩
    rw [if_neg remains]
    show (Events.put _ .waveDone _).get .waveDone = _
    rw [Events.get_put, if_pos rfl]

theorem exec_abort (ready : Ready s) {t : State} {status : Status} {payload : List Byte}
    (h : abortRequest s.hunting = ⟨t.hunting, status, payload⟩) :
    exec (.abort 0xFFFF) s = .next (t.answer 0xFFFF 20 status payload) := by
  refine exec_answer (f := bareFrame 0xFFFF 20) rfl ready (by decide) (t := t) ?_
  rw [serve, parse_abort]
  exact h

/-- Settles O30: refused, ignored, or the members missed and stopped, the HALTs set and the wave tested. -/
theorem abortOutcome : Obligations.AbortOutcome := by
  refine fun s ready => ⟨fun idle => exec_abort (t := s) ready ?_, fun w hw => ⟨fun aborting => exec_abort (t := s) ready ?_,
    fun other active distinct => ?_⟩⟩
  · unfold abortRequest
    cases hw : s.wave with
    | none => rw [show s.hunting.wave = none from hw]; rfl
    | some w =>
      rw [show s.hunting.wave = some w from hw]
      dsimp only
      rw [idle w hw]
      rfl
  · unfold abortRequest
    rw [show s.hunting.wave = some w from hw]
    dsimp only
    rw [aborting]
  · have hw' : s.hunting.wave = some w := hw
    have aborted : abortRequest s.hunting = abortRequest.aborted s.hunting w := by
      unfold abortRequest
      rw [hw']
      cases state : w.state with
      | done => exact absurd state active
      | aborting => exact absurd state other
      | arming | armed | running => dsimp only; rw [state]
    obtain ⟨frame, wave, listed, halts, others, lines, events⟩ := abortWave_spec hw' distinct
    obtain ⟨x, doneFrame, robots, sameLines, doneWave, state, raised⟩ := doneTest_aborted wave
    have trunk : (doneTest (abortWave s.hunting).1).trunk = s.hunting.trunk := by rw [frame.trans doneFrame]
    have line (k : LineNo) := line_congr sameLines k
    have robot (q : RobotNo) := robot_congr robots q
    have written {m : Member} (hm : m ∈ w.members) : s.hunting.abortedMember m ∈ w.members.map s.hunting.abortedMember :=
      List.mem_map_of_mem hm
    refine ⟨doneTest (abortWave s.hunting).1, _, exec_abort ready ?_, doneWave, rfl, rfl, state, ?_, fun k => ?_,
      fun m hm waits => ?_, fun m hm stops => ?_, fun m hm unlisted stands => ?_⟩
    · have missed : (abortWave s.hunting).2.1 = (w.members.filter Member.waits).length := abortListed_length hw'
      have stopped : (abortWave s.hunting).2.2 = (w.members.filter s.hunting.halts).length := by
        rw [abortWave_eq, abortRobots_eq hw' distinct, List.length_map]
      rw [aborted, hunting_of_trunk trunk, abortRequest.aborted, missed, stopped]
      rfl
    · rw [events _ (by decide)] at raised
      exact raised
    · rw [line]
      exact lines k
    · have written := written hm
      rw [abortedMember_waits waits] at written
      rw [robot, listed m hm waits]
      exact ⟨rfl, rfl, rfl, written⟩
    · have written := written hm
      rw [abortedMember_halts (s := s.hunting) stops] at written
      obtain ⟨slot, cycle, read⟩ := halts m hm stops
      rw [robot, line]
      exact ⟨slot, written, cycle, read⟩
    · have written := written hm
      rw [abortedMember_stands (s := s.hunting) unlisted stands] at written
      rw [robot]
      exact ⟨written, others m hm unlisted stands⟩

end Sys2Proof.Machine
end

section
/-!
SUPPORT. What the failures of a LINE_RESET keep on every line: the broadcast flags, and the cycle places of robots still MOVING.
-/

namespace Sys2Proof.Machine

variable {s t u : State} {r : RobotNo} {l : LineNo}

/-- From `s` to `t` the broadcast flags stay, no robot has begun to move, and a poll cycle has lost only places of robots that are no
longer MOVING. -/
structure KeepsPolls (s t : State) : Prop where
  halt : ∀ k, (t.line k).haltPending = (s.line k).haltPending
  go : ∀ k, (t.line k).goPending = (s.line k).goPending
  cycle : ∀ k, (t.line k).cycle.Sublist (s.line k).cycle
  moving : ∀ q, (t.robot q).slot = .moving → (s.robot q).slot = .moving
  polls : ∀ k, ∀ p ∈ (s.line k).cycle, (t.robot p.robot).slot = .moving → p ∈ (t.line k).cycle

/-- The broadcast flags and the poll cycle of a line. -/
def Line.polling (e : Line) : Bool × Option GoFlag × List PollEntry := (e.haltPending, e.goPending, e.cycle)

namespace KeepsPolls

theorem trans (h : KeepsPolls s t) (k : KeepsPolls t u) : KeepsPolls s u where
  halt l := (k.halt l).trans (h.halt l)
  go l := (k.go l).trans (h.go l)
  cycle l := (k.cycle l).trans (h.cycle l)
  moving q hq := h.moving q (k.moving q hq)
  polls l p hp hq := k.polls l p (h.polls l p hp (k.moving _ hq)) hq

/-- A step that leaves the flags and the poll cycles. -/
theorem still (lines : ∀ k, (t.line k).polling = (s.line k).polling)
    (moving : ∀ q, (t.robot q).slot = .moving → (s.robot q).slot = .moving) : KeepsPolls s t where
  halt k := congrArg (fun x => x.1) (lines k)
  go k := congrArg (fun x => x.2.1) (lines k)
  cycle k := by rw [show (t.line k).cycle = (s.line k).cycle from congrArg (fun x => x.2.2) (lines k)]
  moving := moving
  polls k p hp _ := by rw [show (t.line k).cycle = (s.line k).cycle from congrArg (fun x => x.2.2) (lines k)]; exact hp

theorem refl (s : State) : KeepsPolls s s := still (fun _ => rfl) fun _ => id

theorem foldl {α : Type} {f : State → α → State} (hf : ∀ s x, KeepsPolls s (f s x)) (xs : List α) (s : State) :
    KeepsPolls s (xs.foldl f s) := by
  induction xs generalizing s with
  | nil => exact refl s
  | cons x xs ih => exact (hf s x).trans (ih _)

theorem modMember (r : RobotNo) (f : Member → Member) : KeepsPolls s (s.modMember r f) :=
  still (fun k => by rw [line_modMember]) fun q => by rw [robot_modMember]; exact id

theorem modLine (l : LineNo) {f : Line → Line} (hf : ∀ e, (f e).polling = e.polling) : KeepsPolls s (s.modLine l f) := by
  refine still (fun k => ?_) fun _ => id
  rw [line_modLine]
  split
  · exact hf _
  · rfl

theorem modRobot (r : RobotNo) {f : Robot → Robot} (hf : ∀ b, (f b).slot ≠ .moving) : KeepsPolls s (s.modRobot r f) := by
  refine still (fun _ => rfl) fun q => ?_
  rw [robot_modRobot]
  split
  · exact fun h => absurd h (hf _)
  · exact id

theorem raise (c : EventClass) (d : Half) : KeepsPolls s (s.raise c d) := still (fun _ => rfl) fun _ => id

/-- A decided member leaves the poll cycle, and its robot is no longer MOVING (R95). -/
theorem concludeUncertain (r : RobotNo) (o : Ending) (why : Reason) : KeepsPolls s (s.concludeUncertain r o why) := by
  have robots := (ChangesAll.concludeUncertain s r o why).robots
  have line (k : LineNo) := (concludeUncertain_line (s := s) (r := r) (o := o) (why := why) k).trans (conclude_line ..)
  refine ⟨fun k => ?_, fun k => ?_, fun k => ?_, fun q => ?_, fun k p hp => ?_⟩
  · rw [line]; split <;> rfl
  · rw [line]; split <;> rfl
  · rw [line]
    split
    · exact List.filter_sublist
    · exact List.Sublist.refl _
  · rw [robots]
    split
    · nofun
    · exact id
  · rw [robots, line]
    by_cases here : p.robot ∈ [r]
    · rw [if_pos here]; nofun
    · rw [if_neg here]
      intro _
      split
      · exact List.mem_filter.2 ⟨hp, decide_eq_true fun e => here (List.mem_singleton.2 e)⟩
      · exact hp

theorem concludeLost (r : RobotNo) (why : Reason) : KeepsPolls s (s.concludeLost r why) :=
  (concludeUncertain r .lost why).trans (raise _ _)

theorem armTest : KeepsPolls s (armTest s) :=
  still (fun k => by rw [armTest_line]) fun q => by rw [armTest_robot]; exact id

theorem modWave (f : Wave → Wave) : KeepsPolls s (s.modWave f) :=
  still (fun k => by rw [line_congr (State.modWave_lines _ _)]) fun q => by rw [robot_modWave]; exact id

/-- A chain commit leaves the flags and the poll cycles, and moves no robot (R85). -/
theorem chainCommit (w : Wave) : KeepsPolls s (chainCommit s w) := by
  obtain ⟨commits, -⟩ := examined_commits (chainCandidates s) ({ s with deferred := [] }, { members := [], counts := ⟨0, 0, 0, 0⟩ })
  obtain ⟨_, -, advances⟩ := examined_advances (chainCandidates s)
    ({ s with deferred := [] }, { members := [], counts := ⟨0, 0, 0, 0⟩ }) (fun q hq => absurd hq List.not_mem_nil)
  have examined : KeepsPolls s ((chainCandidates s).foldl examine
      ({ s with deferred := [] }, { members := [], counts := ⟨0, 0, 0, 0⟩ })).1 := by
    refine still (fun k => ?_) fun q hq => ?_
    · rw [commits.lines]; rfl
    · rcases advances.slot q with e | e
      · exact e ▸ hq
      · rw [e] at hq; cases hq
  unfold Machine.chainCommit commitCandidates createWave
  dsimp only
  generalize (chainCandidates s).foldl examine ({ s with deferred := [] }, { members := [], counts := ⟨0, 0, 0, 0⟩ }) = b at examined
  refine examined.trans ?_
  split
  · exact (modWave _).trans (raise _ _)
  · exact still (fun _ => rfl) fun _ => id

theorem waveDone (w : Wave) : KeepsPolls s (waveDone s w) := by
  have done : KeepsPolls s ((s.modWave fun w => { w with state := .done }).raise .waveDone w.number) :=
    (modWave _).trans (raise _ _)
  unfold Machine.waveDone
  dsimp only
  split
  · exact done
  · split
    · exact done.trans (modWave _)
    · exact done.trans (chainCommit w)

theorem doneTest : KeepsPolls s (doneTest s) := by
  unfold Machine.doneTest
  split
  · exact refl s
  · split
    · exact waveDone _
    · exact refl s

/-! ### The failures (R77, R78, R101, R104, R105, R108) -/

theorem removeRead (r : RobotNo) : KeepsPolls s (s.removeRead r) := modLine _ fun _ => rfl

theorem offerClear (r : RobotNo) : KeepsPolls s (s.offerClear r) := modLine _ fun e => by split <;> rfl

theorem offerRead (r : RobotNo) (a b : Bool) : KeepsPolls s (s.offerRead r a b) := modLine _ fun e => by split <;> rfl

theorem beginClear (m : Member) (b : Bool) : KeepsPolls s (s.beginClear m b) := by
  have cleared : KeepsPolls s ((s.setSlot m.robot .stopping).modMember m.robot fun m =>
      { m with delivery := .clearing, clearLineReset := b, stop := .none }) :=
    (modRobot m.robot (f := fun q => { q with slot := .stopping }) fun _ => nofun).trans (modMember _ _)
  unfold State.beginClear State.removeAbortRead
  split
  · exact cleared.trans (offerClear _)
  · exact (cleared.trans (removeRead _)).trans (offerClear _)

theorem judgeClear (m : Member) (c : Bool) : KeepsPolls s (judgeClear s m (.failed c)) :=
  (modMember m.robot fun m => { m with delivery := .closed }).trans (concludeLost _ _)

theorem judgeReadBackHalt (m : Member) (round : Nat) : KeepsPolls s (judgeReadBackHalt s m round) :=
  (modMember m.robot fun m => { m with stop := .read round }).trans (offerRead _ _ _)

theorem judgeRead (r : RobotNo) (a b c : Bool) : KeepsPolls s (judgeRead s r a b (.failed c)) := by
  unfold Machine.judgeRead
  dsimp only
  split
  · split
    · exact concludeLost _ _
    · exact refl s
  · exact refl s

theorem judgePoll (r : RobotNo) (c : Bool) : KeepsPolls s (judgePoll s r (.failed c)) := by
  unfold Machine.judgePoll
  split
  · split
    · exact concludeLost _ _
    · exact refl s
  · exact refl s

/-- The failure of a transaction that is no broadcast (R118). -/
theorem judgeEnd_failed {kind : TxnKind} (single : kind.isBroadcast = false) (stale c : Bool) :
    KeepsPolls s (judgeEnd s l kind stale (.failed c)) := by
  cases stale with
  | true => rw [judgeEnd_stale fun g e => by rw [e] at single; cases single]; exact refl s
  | false =>
    cases kind with
    | deliver r =>
      show KeepsPolls s (endDeliver s r _)
      unfold endDeliver
      split
      · exact refl s
      · split
        · exact ((beginClear _ c).trans armTest).trans doneTest
        · exact refl s
    | read r a b => exact (judgeRead r a b c).trans doneTest
    | clear r =>
      show KeepsPolls s (endClear s r _)
      unfold endClear
      split
      · exact refl s
      · split
        · exact ((judgeClear _ c).trans armTest).trans doneTest
        · split
          · exact ((concludeLost _ _).trans armTest).trans doneTest
          · exact refl s
    | haltSingle r =>
      show KeepsPolls s (endHalt s r _)
      unfold endHalt
      split
      · exact refl s
      · split
        · exact ((concludeUncertain _ _ _).trans (raise _ _)).trans doneTest
        · exact judgeReadBackHalt _ _
        all_goals exact refl s
    | poll r => exact (judgePoll r c).trans doneTest
    | go g => cases single
    | haltAll => exact refl s

/-- Every failure of a LINE_RESET is of a transaction that is no broadcast (R135). -/
theorem resetFailures_single (e : Line) : ∀ k ∈ e.resetFailures, k.1.isBroadcast = false := by
  intro k hk
  simp only [Line.resetFailures, List.mem_append, List.mem_map, List.mem_flatMap] at hk
  rcases hk with (hk | ⟨x, -, rfl⟩) | ⟨k, ⟨x, -, hk⟩, rfl⟩
  · split at hk
    · cases hk
    · split at hk
      · cases hk
      · rename_i single
        rw [List.mem_singleton.1 hk]
        exact Bool.eq_false_iff.2 single
  · unfold UrgentEntry.txnKind
    dsimp only
    split <;> rfl
  · simp only [NormalEntry.txnKinds, List.mem_append] at hk
    rcases hk with hk | hk
    · split at hk
      · rw [List.mem_singleton.1 hk]; rfl
      · cases hk
    · split at hk
      · rw [List.mem_singleton.1 hk]; rfl
      · cases hk

theorem resetLine (s : State) (l : LineNo) : KeepsPolls s (resetLine s l) := by
  have failures (ks : List (TxnKind × Bool)) (single : ∀ k ∈ ks, k.1.isBroadcast = false) (s : State) :
      KeepsPolls s (ks.foldl (fun s k => judgeEnd s l k.1 k.2 (.failed true)) s) := by
    induction ks generalizing s with
    | nil => exact refl s
    | cons k ks ih =>
      exact (judgeEnd_failed (single k (List.mem_cons_self ..)) _ _).trans
        (ih (fun j hj => single j (List.mem_cons_of_mem _ hj)) _)
  exact (modLine l (f := Line.afterReset) fun _ => rfl).trans (failures _ (resetFailures_single _) _)

end KeepsPolls

end Sys2Proof.Machine
end

section
/-!
O31: a LINE_RESET.
-/

namespace Sys2Proof.Machine

variable {s t u v : State} {r : RobotNo} {m : Member} {l k : LineNo} {mask : Byte} {e : Line}

/-! ### The lines of a LINE_RESET (R135, R136) -/

theorem afterReset_core_congr {e e' : Line} (h : e.core = e'.core) : e.afterReset.core = e'.afterReset.core := by
  simp only [Line.core, Prod.mk.injEq] at h
  obtain ⟨-, txn, residue, -, counters, timing, lastChar⟩ := h
  simp only [Line.core, Line.afterReset, Line.residueAfter, txn, residue, counters, timing, lastChar]

theorem resetLine_core (s : State) (l k : LineNo) : ((resetLine s l).line k).core =
    if k = l then (s.line k).afterReset.core else (s.line k).core := by
  unfold resetLine
  rw [(Judged.resetFailures _ l true).core, line_modLine]
  by_cases here : k = l
  · rw [if_pos here, if_pos here.symm]
  · rw [if_neg here, if_neg (Ne.symm here)]

theorem resetNamed_core (s : State) (mask : Byte) (l k : LineNo) : ((resetNamed s mask l).1.line k).core =
    if k = l ∧ mask.getLsbD k.val = true then (s.line k).afterReset.core else (s.line k).core := by
  unfold resetNamed flagBit
  by_cases named : mask.getLsbD l.val = true
  · rw [if_pos named, resetLine_core]
    by_cases here : k = l
    · subst here; rw [if_pos rfl, if_pos ⟨rfl, named⟩]
    · rw [if_neg here, if_neg fun h => here h.1]
  · rw [if_neg named, if_neg]
    rintro ⟨rfl, h⟩
    exact named h

/-- The named lines reset one after another. -/
theorem foldl_resetNamed_core (mask : Byte) (k : LineNo) (ls : List LineNo) (distinct : ls.Nodup) (s : State) :
    ((ls.foldl (fun s l => (resetNamed s mask l).1) s).line k).core =
      if k ∈ ls ∧ mask.getLsbD k.val = true then (s.line k).afterReset.core else (s.line k).core := by
  induction ls generalizing s with
  | nil => rfl
  | cons l ls ih =>
    obtain ⟨fresh, distinct⟩ := List.nodup_cons.1 distinct
    rw [List.foldl_cons, ih distinct]
    have first := resetNamed_core s mask l k
    by_cases here : k = l
    · subst here
      rw [if_neg fun h => fresh h.1, first]
      simp
    · rw [if_neg fun h => here h.1] at first
      rw [first, afterReset_core_congr first]
      simp [here]

theorem lineResetRequest_state (s : State) (mask : Byte) : (lineResetRequest s mask).state =
    allLines.foldl (fun s l => (resetNamed s mask l).1) s := rfl

theorem lineResetRequest_core (s : State) (mask : Byte) (k : LineNo) : (((lineResetRequest s mask).state).line k).core =
    if mask.getLsbD k.val = true then (s.line k).afterReset.core else (s.line k).core := by
  rw [lineResetRequest_state, foldl_resetNamed_core mask k allLines (by decide)]
  simp [mem_allLines]

theorem lineResetRequest_polls (s : State) (mask : Byte) : KeepsPolls s (lineResetRequest s mask).state := by
  rw [lineResetRequest_state]
  refine .foldl (fun s l => ?_) allLines s
  unfold resetNamed
  split
  · exact .resetLine s l
  · exact .refl s

/-- What an abandoned transaction leaves on its line (R136, log entry 15). -/
theorem residueAfter_true (e : Line) : (∀ ρ, e.residue = some ρ → e.residueAfter true = some ρ) ∧
    (e.residue = none → e.residueAfter true = match e.txn with
      | none => none
      | some x => match x.phase with
        | .gap _ _ => none
        | .sending f => some ⟨x, f.isBroadcast⟩
        | .waiting _ _ => some ⟨x, false⟩
        | .receiving _ _ => some ⟨x, false⟩) := by
  unfold Line.residueAfter
  refine ⟨fun ρ hρ => ?_, fun none => ?_⟩
  · rw [hρ]; simp
  · rw [none]
    cases e.txn with
    | none => rfl
    | some x => dsimp only [Txn.residue]; cases x.phase <;> rfl

theorem exec_lineReset (ready : Ready s) {status : Status} {payload : List Byte}
    (h : lineResetRequest s.hunting mask = ⟨t.hunting, status, payload⟩) :
    exec (.lineReset 0xFFFF mask) s = .next (t.answer 0xFFFF 24 status payload) := by
  refine exec_answer (f := lineResetFrame 0xFFFF mask) rfl ready (by simp [lineResetFrame, Config.payloadMax]) (t := t) ?_
  rw [serve, parse_lineReset]
  exact h

/-! ### The failures of one line -/

/-- A line with one piece of work that is no broadcast has that failure, and a READ joined to a DELIVER comes after it (R135). -/
theorem resetFailures_of_onlyWork {kind : TxnKind} (h : OnlyWork e kind) (single : kind.isBroadcast = false) :
    e.resetFailures = [(kind, false)] ∨
      ∃ r a b, kind = .deliver r ∧ e.resetFailures = [(kind, false), (.read r a b, false)] := by
  rcases h with ⟨x, txn, rfl, fresh, urgent, normal⟩ | ⟨txn, normal, r, ⟨rfl, urgent⟩ | ⟨rfl, urgent⟩⟩ |
    ⟨txn, urgent, r, a, b, ⟨rfl, normal⟩ | ⟨rfl, reads, normal⟩⟩
  · left
    simp [Line.resetFailures, txn, urgent, normal, single, fresh]
  · left
    simp [Line.resetFailures, txn, urgent, normal, UrgentEntry.txnKind]
  · left
    simp [Line.resetFailures, txn, urgent, normal, UrgentEntry.txnKind]
  · cases reads : (a || b) with
    | true =>
      right
      refine ⟨r, a, b, rfl, ?_⟩
      simp [Line.resetFailures, txn, urgent, normal, NormalEntry.txnKinds, NormalEntry.hasRead, reads]
    | false =>
      left
      simp [Line.resetFailures, txn, urgent, normal, NormalEntry.txnKinds, NormalEntry.hasRead, reads]
  · left
    simp [Line.resetFailures, txn, urgent, normal, NormalEntry.txnKinds, NormalEntry.hasRead, reads]

theorem freed_afterReset (s : State) (l : LineNo) : Freed s (s.modLine l Line.afterReset) l where
  toAlike := .modLine l _
  events := rfl
  state := by rw [line_modLine, if_pos rfl]; rfl
  txn := by rw [line_modLine, if_pos rfl]; rfl

theorem line_afterReset (s : State) (l : LineNo) : (s.modLine l Line.afterReset).line l = (s.line l).afterReset := by
  rw [line_modLine, if_pos rfl]

/-- One piece of work that is no DELIVER fails with cause LINE_RESET (R135). -/
theorem resetLine_of_onlyWork {kind : TxnKind} (h : OnlyWork (s.line l) kind) (single : kind.isBroadcast = false)
    (other : ∀ r, kind ≠ .deliver r) :
    resetLine s l = judgeEnd (s.modLine l Line.afterReset) l kind false (.failed true) := by
  rcases resetFailures_of_onlyWork h single with failures | ⟨r, -, -, rfl, -⟩
  · rw [resetLine, failures]; rfl
  · exact absurd rfl (other r)

theorem judgeEnd_read_unwaited (hm : u.member? r = some m) (stop : m.stop = .none) (a b c : Bool) :
    judgeEnd u l (.read r a b) false (.failed c) = u := by
  have judged : judgeRead u r a b (.failed c) = u := by
    simp [judgeRead, State.readBack?, hm, stop, StopPhase.readRound?]
  show doneTest (judgeRead u r a b _) = u
  rw [judged, doneTest_of_member hm]

/-- A DELIVER in flight or listed gives its CLEAR, and a READ joined to it fails with it (R77, R88). -/
theorem resetLine_of_deliver (h : OnlyWork (s.line l) (.deliver r)) (hm : s.member? r = some m)
    (open' : m.delivery = .listed ∨ m.delivery = .inFlight) :
    resetLine s l = (s.modLine l Line.afterReset).beginClear m true := by
  have here := ((freed_afterReset s l).member? r).trans hm
  have cleared := judgeEnd_beginClear (l := l) (en := .failed true) here open' rfl
  rcases resetFailures_of_onlyWork h rfl with failures | ⟨q, a, b, same, failures⟩
  · rw [resetLine, failures]
    exact cleared
  · obtain rfl := TxnKind.deliver.inj same
    rw [resetLine, failures]
    show judgeEnd (judgeEnd _ l (.deliver r) false _) l (.read r a b) false _ = _
    rw [cleared, judgeEnd_read_unwaited (beginClear_member? here true) rfl]

/-- The one piece of work of a line fails, and decides robot `r`'s member (R101, R104, R108). -/
theorem resetLine_poll (h : OnlyWork (s.line l) (.poll r)) (hm : s.member? r = some m) (moving : (s.robot r).slot = .moving) :
    resetLine s l = doneTest ((s.modLine l Line.afterReset).concludeLost r .lineReset) := by
  have here := ((freed_afterReset s l).member? r).trans hm
  have slot : ((s.modLine l Line.afterReset).robot r).slot = .moving := moving
  rw [resetLine_of_onlyWork h rfl nofun]
  cases hw : (s.modLine l Line.afterReset).wave with
  | none =>
    obtain ⟨mem, -⟩ := member?_some here
    rw [State.members, hw] at mem
    cases mem
  | some w =>
    simp only [judgeEnd, judgePoll, hw, here, if_pos slot]
    rfl

theorem resetLine_readBack {a : Bool} {round : Nat} (h : OnlyWork (s.line l) (.read r a true)) (hm : s.member? r = some m)
    (stop : m.stop = .read round) :
    resetLine s l = doneTest ((s.modLine l Line.afterReset).concludeLost r .lineReset) := by
  have here := ((freed_afterReset s l).member? r).trans hm
  have robot := (member?_some hm).2.2
  have waits : (s.modLine l Line.afterReset).readBack? r = some (m, round) := by
    simp only [State.readBack?, here, stop, StopPhase.readRound?]
  rw [resetLine_of_onlyWork h rfl nofun]
  simp only [judgeEnd, judgeRead, waits, robot]
  rfl

/-- A REFRESH's READ passes without effect (R112). -/
theorem resetLine_refresh (h : OnlyWork (s.line l) (.read r true false)) (stillOpen : WaveOpen s) :
    resetLine s l = s.modLine l Line.afterReset := by
  rw [resetLine_of_onlyWork h rfl nofun]
  exact doneTest_open (waveOpen_congr rfl stillOpen)

theorem offerRead_urgent (s : State) (r : RobotNo) (a b : Bool) (k : LineNo) :
    ((s.offerRead r a b).line k).urgent = (s.line k).urgent := by
  rw [State.offerRead, line_modLine]
  split
  · split <;> rfl
  · rfl

/-- A read-back HALT single gives its READ (R105). -/
theorem resetLine_halt {round : Nat} (h : OnlyWork (s.line l) (.haltSingle r)) (line : (s.robot r).static.line = l)
    (hm : s.member? r = some m) (stop : m.stop = .halt round) : let t := resetLine s l
      (t.line l).urgent = [] ∧ (t.line l).normal = [⟨r, false, false, true⟩] ∧
        t.member? r = some { m with stop := .read round } ∧ t.robots = s.robots := by
  have freed := freed_afterReset s l
  have here := (freed.member? r).trans hm
  have robot := (member?_some hm).2.2
  rw [resetLine_of_onlyWork h rfl nofun, judgeEnd_readBackHalt here stop]
  obtain ⟨-, member, robots, -, normal⟩ := judgeReadBackHalt_waits (s := s.modLine l Line.afterReset)
    ⟨.refl _, rfl, freed.state, freed.txn⟩ (fun _ => ⟨rfl, rfl, rfl⟩) here round
  have there : ((s.modLine l Line.afterReset).robot r).static.line = l := line
  rw [there, line_afterReset] at normal
  refine ⟨?_, normal nofun, member, robots⟩
  show ((State.offerRead _ m.robot false true).line l).urgent = []
  rw [offerRead_urgent, line_modMember, line_afterReset]
  rfl

theorem beginClear_other {q : RobotNo} (hm : u.member? r = some m) (b : Bool) (other : q ≠ r) :
    (u.beginClear m b).member? q = u.member? q := by
  rw [beginClear_eq (member?_some hm).2.2, member?_congr (State.modLine_wave ..)]
  refine (member?_modMember_ne _ r ?_ other).trans (member?_modRobot ..)
  exact fun _ => rfl

/-- A CLEAR offered for a robot that stands nowhere on its line is appended (R119). -/
theorem beginClear_urgent {done : List RobotNo} (robot : m.robot = r) (line : (u.robot r).static.line = l)
    (up : (u.line l).state ≠ .down) (urgent : (u.line l).urgent = done.map fun r => ⟨r, .clear⟩) (fresh : r ∉ done) (b : Bool) :
    ((u.beginClear m b).line l).state = (u.line l).state ∧
      ((u.beginClear m b).line l).urgent = (done ++ [r]).map fun r => ⟨r, .clear⟩ := by
  have base (f : Robot → Robot) (g : Member → Member) : ((u.modRobot r f).modMember r g).line l = u.line l := line_modMember ..
  have unlisted : (done.map fun r => (⟨r, .clear⟩ : UrgentEntry)).any (fun x => decide (x.robot = r)) = false := by
    rw [List.any_map, List.any_eq_false]
    intro q hq here
    exact fresh (of_decide_eq_true here ▸ hq)
  rw [beginClear_eq robot, line, line_modLine, if_pos rfl, base]
  dsimp only
  rw [if_neg up, urgent, offerClearTo, unlisted]
  refine ⟨rfl, ?_⟩
  rw [if_neg (by decide), List.map_append]
  rfl

/-- Listed DELIVERs give their CLEARs in their order (R77, R119). -/
theorem foldl_deliver_urgent (rs done : List RobotNo) (v : State) (up : (v.line l).state ≠ .down)
    (urgent : (v.line l).urgent = done.map fun r => ⟨r, .clear⟩) (distinct : (done ++ rs).Nodup)
    (listed : ∀ r ∈ rs, (v.robot r).static.line = l ∧ ∃ m, v.member? r = some m ∧ m.delivery = .listed) :
    ((rs.foldl (fun v r => judgeEnd v l (.deliver r) false (.failed true)) v).line l).urgent =
      (done ++ rs).map fun r => ⟨r, .clear⟩ := by
  induction rs generalizing done v with
  | nil => rw [List.append_nil]; exact urgent
  | cons r rs ih =>
    obtain ⟨line, m, hm, delivery⟩ := listed r (List.mem_cons_self ..)
    have cleared := judgeEnd_beginClear (l := l) (en := .failed true) hm (.inl delivery) rfl
    have robot := (member?_some hm).2.2
    have fresh : r ∉ done := fun h => (List.nodup_append.1 distinct).2.2 r h r (List.mem_cons_self ..) rfl
    obtain ⟨state, appended⟩ := beginClear_urgent robot line up urgent fresh true
    rw [List.foldl_cons, cleared, List.append_cons]
    refine ih (done ++ [r]) _ (by rw [state]; exact up) appended (by rwa [← List.append_cons]) fun q hq => ?_
    obtain ⟨qLine, n, hn, nDelivery⟩ := listed q (List.mem_cons_of_mem _ hq)
    have other : q ≠ r := by
      rintro rfl
      exact (List.nodup_cons.1 (List.nodup_append.1 distinct).2.1).1 hq
    refine ⟨?_, n, (beginClear_other hm true other).trans hn, nDelivery⟩
    rw [(Judged.beginClear m true).static]
    exact qLine

/-! ### The request -/

theorem lineReset_trunk (s : State) (mask : Byte) :
    (lineResetRequest s.hunting mask).state.hunting = (lineResetRequest s.hunting mask).state :=
  hunting_of_trunk (Serves.lineResetRequest mask).trunk

/-- A LINE_RESET that names one line (R135). -/
theorem lineResetRequest_one (only : ∀ k : LineNo, mask.getLsbD k.val = decide (k = l)) (s : State) :
    lineResetRequest s mask = ⟨resetLine s l, .ok, ([0, 1, 2, 3] : List LineNo).flatMap fun k =>
      le16 (halfOf (if k = l then (s.line l).urgent.length + (s.line l).normal.length else 0))⟩ := by
  have named (s : State) (k : LineNo) : resetNamed s mask k = if k = l then (resetLine s l, resetCount s l) else (s, 0) := by
    unfold resetNamed flagBit
    rw [only k]
    by_cases here : k = l
    · subst here; simp
    · simp [here]
  unfold lineResetRequest
  simp only [named]
  fin_cases l <;> rfl

/-- A LINE_RESET that names no line (R135). -/
theorem lineResetRequest_none (none : ∀ k : LineNo, mask.getLsbD k.val = false) (s : State) :
    lineResetRequest s mask = ⟨s, .ok, List.replicate 8 0⟩ := by
  have named (s : State) (k : LineNo) : resetNamed s mask k = (s, 0) := if_neg (by rw [flagBit, none]; decide)
  unfold lineResetRequest
  simp only [named]
  rfl

theorem not_onlyWork {kind : TxnKind} (txn : e.txn = none) (urgent : e.urgent = []) (normal : e.normal = []) :
    ¬OnlyWork e kind := by
  rintro (⟨x, h, -⟩ | ⟨-, -, r, ⟨-, h⟩ | ⟨-, h⟩⟩ | ⟨-, -, r, a, b, ⟨-, h⟩ | ⟨-, -, h⟩⟩)
  · rw [txn] at h; cases h
  · rw [urgent] at h; cases h
  · rw [urgent] at h; cases h
  · rw [normal] at h; cases h
  · rw [normal] at h; cases h

/-- A line has one kind of work only. -/
theorem onlyWork_inj {kind kind' : TxnKind} (h : OnlyWork e kind) (h' : OnlyWork e kind') (single : kind.isBroadcast = false)
    (single' : kind'.isBroadcast = false) : kind = kind' := by
  have head (k : TxnKind) (h : OnlyWork e k) (single : k.isBroadcast = false) : e.resetFailures.head? = some (k, false) := by
    rcases resetFailures_of_onlyWork h single with f | ⟨_, _, _, -, f⟩ <;> rw [f] <;> rfl
  exact congrArg Prod.fst (Option.some.inj ((head kind h single).symm.trans (head kind' h' single')))

/-- The frame of a LINE_RESET over all lines. -/
theorem lineReset_frame (s : State) (mask : Byte) (l : LineNo) : let t := (lineResetRequest s mask).state
    ((t.line l).timing = (s.line l).timing ∧ (t.line l).counters = (s.line l).counters ∧
      (t.line l).lastChar = (s.line l).lastChar ∧ (t.line l).haltPending = (s.line l).haltPending ∧
      (t.line l).goPending = (s.line l).goPending ∧ (t.line l).cycle.Sublist (s.line l).cycle ∧
      ∀ p ∈ (s.line l).cycle, (t.robot p.robot).slot = .moving → p ∈ (t.line l).cycle) ∧
    (mask.getLsbD l.val = true → (t.line l).state = .idle ∧ (t.line l).txn = none ∧ (t.line l).silence = 0 ∧
      (t.line l).residue = (s.line l).residueAfter true) ∧
    (mask.getLsbD l.val = false → (t.line l).state = (s.line l).state ∧ (t.line l).txn = (s.line l).txn ∧
      (t.line l).residue = (s.line l).residue ∧ (t.line l).silence = (s.line l).silence) := by
  obtain ⟨halt, go, cycle, -, polls⟩ := lineResetRequest_polls s mask
  have core := lineResetRequest_core s mask l
  dsimp only
  cases named : mask.getLsbD l.val with
  | true =>
    rw [if_pos named] at core
    simp only [Line.core, Prod.mk.injEq] at core
    obtain ⟨state, txn, residue, silence, counters, timing, lastChar⟩ := core
    exact ⟨⟨timing, counters, lastChar, halt l, go l, cycle l, polls l⟩, fun _ => ⟨state, txn, silence, residue⟩, nofun⟩
  | false =>
    rw [if_neg (by rw [named]; decide)] at core
    simp only [Line.core, Prod.mk.injEq] at core
    obtain ⟨state, txn, residue, silence, counters, timing, lastChar⟩ := core
    exact ⟨⟨timing, counters, lastChar, halt l, go l, cycle l, polls l⟩, nofun, fun _ => ⟨state, txn, residue, silence⟩⟩

/-- The one piece of work of a line decides a member, and the wave goes on (R83, R121). -/
structure ResetDecides (s : State) (l : LineNo) (r : RobotNo) (m : Member) (o : Ending) (why : Reason) (c : EventClass)
    (u : State) : Prop where
  ends : EndsUncertain s u r m o why
  raised : u.events.get c = (s.events.get c).raised (halfOf r.val)
  tested : OnlyWork (s.line l) (.clear r) → u.armingTested
  reset : resetLine s.hunting l = doneTest u

/-- A line without work keeps all but its state and its silence count (R135). -/
theorem afterReset_idle (txn : e.txn = none) (urgent : e.urgent = []) (normal : e.normal = []) :
    e.afterReset = { e with state := .idle, silence := 0 } := by
  have residue : e.residueAfter true = e.residue := by
    cases h : e.residue with
    | none => rw [(residueAfter_true e).2 h, txn]
    | some ρ => exact (residueAfter_true e).1 ρ h
  rw [Line.afterReset, residue, ← txn, ← urgent, ← normal]

theorem modLine_congr {f g : Line → Line} (h : f (s.line l) = g (s.line l)) : s.modLine l f = s.modLine l g := by
  rw [State.modLine, h]; rfl

theorem freed_resetLine (s : State) (l : LineNo) : Freed s (s.hunting.modLine l Line.afterReset) l where
  toAlike := ⟨rfl, rfl, rfl, rfl, rfl, rfl, rfl⟩
  events := rfl
  state := (freed_afterReset s.hunting l).state
  txn := (freed_afterReset s.hunting l).txn

section

variable {o : Ending} {why : Reason} {c : EventClass} {kind : TxnKind}

/-- A failure that is no CLEAR decides its member. -/
theorem resetDecides_of {u : State} (work : OnlyWork (s.line l) kind) (single : kind.isBroadcast = false) (other : kind ≠ .clear r)
    (ends : EndsUncertain (s.hunting.modLine l Line.afterReset) u r m o why ∧
      u.events.get c = ((s.hunting.modLine l Line.afterReset).events.get c).raised (halfOf r.val))
    (reset : resetLine s.hunting l = doneTest u) : ResetDecides s l r m o why c u where
  ends := ends.1.of_alike (freed_resetLine s l).toAlike
  raised := ends.2
  tested clear := absurd (onlyWork_inj work clear single rfl) other
  reset := reset

/-- A poll of a robot still MOVING decides it LOST (R101). -/
theorem resetDecides_poll (work : OnlyWork (s.line l) (.poll r)) (hm : s.member? r = some m) (moving : (s.robot r).slot = .moving) :
    ∃ u, ResetDecides s l r m .lost .lineReset .lost u :=
  ⟨_, resetDecides_of work rfl nofun (concludeLost_ends (((freed_resetLine s l).member? r).trans hm))
    (resetLine_poll (s := s.hunting) work hm moving)⟩

/-- A read-back READ decides its member LOST (R108). -/
theorem resetDecides_readBack {a : Bool} {round : Nat} (work : OnlyWork (s.line l) (.read r a true)) (hm : s.member? r = some m)
    (stop : m.stop = .read round) : ∃ u, ResetDecides s l r m .lost .lineReset .lost u :=
  ⟨_, resetDecides_of work rfl nofun (concludeLost_ends (((freed_resetLine s l).member? r).trans hm))
    (resetLine_readBack (s := s.hunting) work hm stop)⟩

/-- An overrun HALT single decides its member OVERRUN (R104). -/
theorem resetDecides_overrun (work : OnlyWork (s.line l) (.haltSingle r)) (hm : s.member? r = some m)
    (stop : m.stop = .overrunHalt) : ∃ u, ResetDecides s l r m .overrun .lineReset .overrun u := by
  have here := ((freed_resetLine s l).member? r).trans hm
  have reset := resetLine_of_onlyWork (s := s.hunting) work rfl nofun
  rw [judgeEnd_overrunHalt here stop] at reset
  obtain ⟨-, -, rfl⟩ := member?_some hm
  exact ⟨_, resetDecides_of work rfl nofun (concludeUncertain_raised here (by decide) (by decide) _) reset⟩

/-- The CLEAR of a delivery decides its member LOST and CLOSED (R78). -/
theorem resetDecides_clear (work : OnlyWork (s.line l) (.clear r)) (hm : s.member? r = some m)
    (clearing : m.delivery = .clearing) : ∃ u, ResetDecides s l r { m with delivery := .closed } .lost .none .lost u := by
  have here := ((freed_resetLine s l).member? r).trans hm
  have reset := resetLine_of_onlyWork (s := s.hunting) work rfl nofun
  rw [judgeEnd_clear here clearing] at reset
  obtain ⟨-, -, rfl⟩ := member?_some hm
  obtain ⟨-, tested, ends, event⟩ := lost_of_freed (freed_resetLine s l) (closed_lost here) (line_setDelivery _ _)
  exact ⟨_, ends, event, fun _ => tested, reset⟩

/-- The CLEAR of a read-back decides its member LOST (R108). -/
theorem resetDecides_readBackClear (work : OnlyWork (s.line l) (.clear r)) (hm : s.member? r = some m)
    (other : m.delivery ≠ .clearing) (stop : m.stop = .clear) : ∃ u, ResetDecides s l r m .lost .lineReset .lost u := by
  have here := ((freed_resetLine s l).member? r).trans hm
  have reset := resetLine_of_onlyWork (s := s.hunting) work rfl nofun
  rw [judgeEnd_readBackClear here other stop] at reset
  obtain ⟨-, -, rfl⟩ := member?_some hm
  obtain ⟨-, tested, ends, event⟩ := lost_of_freed (freed_resetLine s l) (concludeLost_ends here) rfl
  exact ⟨_, ends, event, fun _ => tested, reset⟩

end

/-- A DELIVER in flight or listed leaves its robot STOPPING with a CLEAR listed (R77). -/
theorem resetLine_deliver (work : OnlyWork (s.line l) (.deliver r)) (line : (s.robot r).static.line = l)
    (hm : s.member? r = some m) (open' : m.delivery = .listed ∨ m.delivery = .inFlight) : let t := resetLine s l
      (t.robot r).slot = .stopping ∧ (t.line l).urgent = [⟨r, .clear⟩] ∧ (t.line l).normal = [] ∧
        t.member? r = some { m with delivery := .clearing, clearLineReset := true, stop := .none } := by
  have here := ((freed_afterReset s l).member? r).trans hm
  have robot := (member?_some hm).2.2
  have there : ((s.modLine l Line.afterReset).robot r).static.line = l := line
  rw [resetLine_of_deliver work hm open']
  refine ⟨?_, ?_, ?_, beginClear_member? here true⟩
  · rw [beginClear_eq robot]
    show (State.robot (((s.modLine l Line.afterReset).modRobot r _).modMember r _) r).slot = _
    rw [robot_modMember, robot_modRobot, if_pos rfl]
  · exact (beginClear_urgent (done := []) robot there (by rw [line_afterReset]; nofun) (by rw [line_afterReset]; rfl)
      List.not_mem_nil true).2
  · have base (f : Robot → Robot) (g : Member → Member) :
        (((s.modLine l Line.afterReset).modRobot r f).modMember r g).line l = (s.line l).afterReset :=
      (line_modMember ..).trans (line_afterReset s l)
    rw [beginClear_eq robot, there, line_modLine, if_pos rfl, base]
    dsimp only
    split <;> rfl

/-- Settles O31: no line named, the frame over all lines, and the one piece of work of one line. -/
theorem lineResetOutcome : Obligations.LineResetOutcome := by
  refine fun s mask ready => ⟨fun none => exec_lineReset (t := s) ready (lineResetRequest_none none _), ?_, fun l only => ?_⟩
  · refine ⟨(lineResetRequest s.hunting mask).state, (lineResetRequest s.hunting mask).payload,
      exec_lineReset ready (by rw [lineReset_trunk]; rfl), fun l => ?_⟩
    obtain ⟨kept, named, others⟩ := lineReset_frame s.hunting mask l
    refine ⟨kept, fun h => ?_, others⟩
    obtain ⟨state, txn, silence, residue⟩ := named h
    rw [residue]
    exact ⟨state, txn, silence, residueAfter_true (s.line l)⟩
  · have run := lineResetRequest_one only s.hunting
    have trunk : (resetLine s.hunting l).hunting = resetLine s.hunting l := by
      have h := lineReset_trunk s mask
      rwa [run] at h
    by_cases idle : (s.line l).txn = none ∧ (s.line l).urgent = [] ∧ (s.line l).normal = []
    · obtain ⟨txn, urgent, normal⟩ := idle
      have none (k : TxnKind) : ¬OnlyWork (s.line l) k := not_onlyWork txn urgent normal
      refine ⟨s.modLine l fun e => { e with state := .idle, silence := 0 }, exec_lineReset ready ?_, fun _ _ _ => rfl,
        fun r m _ _ => ⟨fun h => absurd h (none _), fun _ h => absurd h (none _), fun h => absurd h (none _),
          fun h => absurd h (none _), fun h => absurd h (none _), fun h => absurd h (none _), fun _ _ h => absurd h (none _)⟩,
        fun r h => absurd h (none _), fun rs _ _ h _ _ => ?_⟩
      · have failures : (s.hunting.line l).resetFailures = [] := by
          rw [show s.hunting.line l = s.line l from rfl, Line.resetFailures, txn, urgent, normal]; rfl
        rw [run, resetLine, failures]
        have same : s.hunting.modLine l Line.afterReset = s.hunting.modLine l fun e => { e with state := .idle, silence := 0 } :=
          modLine_congr (afterReset_idle (e := s.line l) txn urgent normal)
        rw [List.foldl_nil, same]
        rfl
      · obtain rfl := List.map_eq_nil_iff.1 (h.symm.trans normal)
        rw [line_modLine, if_pos rfl]
        exact urgent
    · refine ⟨resetLine s.hunting l, exec_lineReset ready (by rw [trunk]; exact run),
        fun txn urgent normal => absurd ⟨txn, urgent, normal⟩ idle, fun r m line hm => ?_, fun r work stillOpen => ?_,
        fun rs txn urgent normal distinct listed => ?_⟩
      · have decides {m : Member} {o : Ending} {why : Reason} {c : EventClass} (h : ∃ u, ResetDecides s l r m o why c u) :
            ∃ u, EndsUncertain s u r m o why ∧ u.events.get c = (s.events.get c).raised (halfOf r.val) ∧
              (OnlyWork (s.line l) (.clear r) → u.armingTested) ∧ Completes u (resetLine s.hunting l) := by
          obtain ⟨u, ends, raised, tested, reset⟩ := h
          exact ⟨u, ends, raised, tested, reset ▸ doneTest_completes u⟩
        refine ⟨fun work open' => ?_, fun round work stop => resetLine_halt (s := s.hunting) work line hm stop, fun work moving => ?_,
          fun work clearing => ?_, fun work other stop => ?_, fun work stop => ?_, fun a round work stop => ?_⟩
        · exact resetLine_deliver (s := s.hunting) work line hm open'
        · exact decides (resetDecides_poll work hm moving)
        · exact decides (resetDecides_clear work hm clearing)
        · exact decides (resetDecides_readBackClear work hm other stop)
        · exact decides (resetDecides_overrun work hm stop)
        · exact decides (resetDecides_readBack work hm stop)
      · rw [resetLine_refresh (s := s.hunting) work stillOpen]
        exact ⟨rfl, rfl, rfl⟩
      · have failures : (s.hunting.line l).resetFailures = rs.map fun r => (.deliver r, false) := by
          rw [show s.hunting.line l = s.line l from rfl, Line.resetFailures, txn, urgent, normal]
          simp [NormalEntry.txnKinds, NormalEntry.hasRead, List.flatMap_map, ← List.map_eq_flatMap]
        rw [resetLine, failures, List.foldl_map]
        exact foldl_deliver_urgent rs [] _ (by rw [line_afterReset]; nofun) (by rw [line_afterReset]; rfl) distinct listed

end Sys2Proof.Machine
end

section
/-!
O19: HALT and REFRESH.
-/

namespace Sys2Proof.Machine

variable {s : State} {r : RobotNo}

theorem exec_halt (ready : Ready s) {t : State} {status : Status} {payload : List Byte}
    (served : haltRequest s.hunting r = ⟨t.hunting, status, payload⟩) :
    exec (.halt (halfOf r.val)) s = .next (t.answer (halfOf r.val) 5 status payload) :=
  exec_answer (f := bareFrame (halfOf r.val) 5) rfl ready (by show 0 ≤ 512; decide)
    (by rw [serve, parse_halt]; exact served)

theorem exec_refresh (ready : Ready s) {t : State} {status : Status} {payload : List Byte}
    (served : refreshRequest s.hunting r = ⟨t.hunting, status, payload⟩) :
    exec (.refresh (halfOf r.val)) s = .next (t.answer (halfOf r.val) 6 status payload) :=
  exec_answer (f := bareFrame (halfOf r.val) 6) rfl ready (by show 0 ≤ 512; decide)
    (by rw [serve, parse_refresh]; exact served)

/-! ### The tests that HALT and REFRESH share (R109, R111) -/

theorem withReachable_absent (s' : State) (absent : (s.robot r).slot = .absent) :
    withReachable s r s' = Served.refused s .absent 0 := if_pos absent

theorem withReachable_down (s' : State) (present : (s.robot r).slot ≠ .absent)
    (down : (s.line (s.robot r).static.line).state = .down) : withReachable s r s' = Served.refused s .lineDown 0 :=
  (if_neg present).trans (if_pos down)

theorem withReachable_up (s' : State) (present : (s.robot r).slot ≠ .absent)
    (up : (s.line (s.robot r).static.line).state ≠ .down) : withReachable s r s' = ⟨s', .queued, []⟩ :=
  (if_neg present).trans (if_neg up)

/-! ### Work offered to a line that is not DOWN -/

theorem offerRead_up (up : (s.line (s.robot r).static.line).state ≠ .down) (refresh readBack : Bool) :
    s.offerRead r refresh readBack =
      s.modLine (s.robot r).static.line fun e => { e with normal := offerReadTo e.normal r refresh readBack } :=
  modLine_congr (if_neg up)

theorem offerHalt_up (up : (s.line (s.robot r).static.line).state ≠ .down) :
    s.offerHalt r = s.modLine (s.robot r).static.line fun e => { e with urgent := offerHaltTo e.urgent r } :=
  modLine_congr (if_neg up)

/-- A member stopped with a HALT single on a line that is not DOWN (R109). -/
theorem stopMember_offerHalt_up (ph : StopPhase) (up : (s.line (s.robot r).static.line).state ≠ .down) :
    (s.stopMember r ph).offerHalt r =
      ((s.modRobot r fun b => { b with slot := .stopping }).modMember r fun m =>
        { m with deadline := none, stop := ph }).modLine (s.robot r).static.line fun e =>
        { e with urgent := offerHaltTo e.urgent r, cycle := e.cycle.filter fun x => x.robot ≠ r } := by
  rw [stopMember_offerHalt]
  refine modLine_congr ?_
  rw [line_modMember]
  exact congrArg (fun urgent => { s.line (s.robot r).static.line with
    urgent := urgent, cycle := (s.line (s.robot r).static.line).cycle.filter fun p => p.robot ≠ r }) (if_neg up)

/-! ### The member that a HALT stops (R109) -/

theorem haltStops_iff : s.haltStops r = true ↔ ((s.robot r).slot = .armed ∨ (s.robot r).slot = .moving) ∧
    ∃ m ∈ s.members, m.robot = r ∧ m.outcome = .none := by
  simp only [State.haltStops, Bool.and_eq_true, Bool.or_eq_true, decide_eq_true_eq, member?_isSome, Member.undecided, and_comm]

/-- A change of a member does not depend on what the receiving half does. -/
theorem modMember_hunting (f : Member → Member) : s.hunting.modMember r f = (s.modMember r f).hunting := by
  unfold State.modMember
  rw [show s.hunting.wave = s.wave from rfl]
  split <;> rfl

/-- Settles O19: the two refusals, REFRESH queued, and HALT queued with and without a member to stop. -/
theorem haltAndRefreshOutcome : Obligations.HaltAndRefreshOutcome := by
  refine fun s r ready => ⟨fun absent => ⟨exec_halt (t := s) ready ?_, exec_refresh (t := s) ready ?_⟩,
    fun present down => ⟨exec_halt (t := s) ready ?_, exec_refresh (t := s) ready ?_⟩,
    fun present up => ⟨exec_refresh ready ?_, fun slot member => exec_halt ready ?_, fun spared => exec_halt ready ?_⟩⟩
  iterate 2 exact withReachable_absent _ absent
  iterate 2 exact withReachable_down _ present down
  · rw [refreshRequest, withReachable_up (s := s.hunting) _ present up, offerRead_up (s := s.hunting) up]
    rfl
  · have stops : s.hunting.haltStops r = true := haltStops_iff.2 ⟨slot, member⟩
    rw [haltRequest, withReachable_up (s := s.hunting) _ present up, if_pos stops,
      stopMember_offerHalt_up (s := s.hunting) _ up,
      show s.hunting.modRobot r _ = (s.modRobot r fun b => { b with slot := .stopping }).hunting from rfl, modMember_hunting]
    rfl
  · have stays : ¬s.hunting.haltStops r = true := fun stops => by
      obtain ⟨slot, m, hm, robot, undecided⟩ := haltStops_iff.1 stops
      exact spared.elim (fun other => other slot) fun decided => decided m hm robot undecided
    rw [haltRequest, withReachable_up (s := s.hunting) _ present up, if_neg stays,
      offerHalt_up (s := s.hunting) up]
    rfl

end Sys2Proof.Machine
end

section
/-!
O49: the poll answers that decide no member.
-/

namespace Sys2Proof.Machine

variable {s u : State} {l : LineNo} {r : RobotNo} {m : Member} {w : Wave}

theorem modMember_modMember (s : State) (r : RobotNo) {f : Member → Member}
    (hf : ∀ m, (f m).robot = m.robot ∧ (f m).outcome = m.outcome) (g : Member → Member) :
    (s.modMember r f).modMember r g = s.modMember r fun m => g (f m) := by
  have undecided (m : Member) : (f m).undecided = m.undecided := by simp [Member.undecided, (hf m).2]
  cases hw : s.wave with
  | none => simp [State.modMember, hw]
  | some w =>
    simp only [State.modMember, hw, List.map_map]
    refine congrArg (fun ms => { s with wave := some { w with members := ms } }) (List.map_congr_left fun m _ => ?_)
    by_cases here : m.robot = r ∧ m.undecided = true
    · simp [here, (hf m).1, undecided]
    · simp [if_neg here]

/-- A poll answer of ARMED in one change of the member and one of its line (R95, R100). -/
theorem judgePollArmed_eq (robot : m.robot = r) : judgePollArmed u m =
    ((u.modRobot r fun b => { b with slot := .stopping }).modMember r fun q =>
      { q with deadline := none, stop := .none, delivery := .clearing, clearLineReset := false }).modLine
        (u.robot r).static.line fun e =>
      { e with
        cycle := e.cycle.filter fun p => p.robot ≠ r
        urgent := if e.state = .down then e.urgent else offerClearTo e.urgent r } := by
  subst robot
  have line : (u.setSlot m.robot .stopping).lineOf m.robot = (u.robot m.robot).static.line := by
    rw [State.lineOf, State.setSlot, robot_modRobot, if_pos rfl]
  have stopped : ((u.stopMember m.robot .none).modMember m.robot fun q =>
      { q with delivery := .clearing, clearLineReset := false }).lineOf m.robot = (u.robot m.robot).static.line := by
    rw [State.lineOf, robot_modMember]
    exact stopMember_lineOf u m.robot .none
  rw [judgePollArmed, State.offerClear, stopped, State.stopMember, State.leaveCycle, line, modMember_modLine,
    modMember_modLine, modLine_modLine, modMember_modMember]
  · refine congrArg (State.modLine _ _) (funext fun e => ?_)
    dsimp only
    split <;> rfl
  · exact fun _ => ⟨rfl, rfl⟩

/-- A member that is changed and stays undecided keeps its wave from completing (R83). -/
theorem doneTest_waits {f : Line → Line} {x : Member → Member} (hm : u.member? r = some m)
    (hx : ∀ q, (x q).robot = q.robot ∧ (x q).outcome = q.outcome) (k : LineNo) :
    doneTest ((u.modMember r x).modLine k f) = (u.modMember r x).modLine k f :=
  doneTest_of_member ((member?_congr (State.modLine_wave ..) r).trans (member?_changed hm hx))

/-- A poll of a robot that is not MOVING is not judged (R102). -/
theorem judgePoll_idle (idle : (u.robot r).slot ≠ .moving) (en : TxnEnd) : judgePoll u r en = u := by
  unfold judgePoll
  split
  · exact if_neg idle
  · rfl

/-- Settles O49: MOVING and HOMING, ARMED, and a robot no longer MOVING. -/
theorem pollLeavesOrClears : Obligations.PollLeavesOrClears := by
  intro s l t x since r posOk fault remaining an kind fresh
  have alike := alike_answeredAt s l t
  have run {code : Byte} (hc : code.toNat ≤ 6) (wave : Half) := exec_answerPoll an hc posOk fault wave remaining
  rw [kind, fresh] at run
  refine ⟨fun m w hw hm moving => ?_, fun idle stillOpen code wave hc => ?_⟩
  · have hm' := (alike.member? r).trans hm
    have judged (code : Byte) (wave : Half) := judgeEnd_poll (l := l) (alike.wave.trans hw) hm'
      (by rw [alike.robot]; exact moving) code (readBool posOk) fault wave remaining
    obtain ⟨-, -, robot⟩ := member?_some hm
    refine ⟨fun code hc => ?_, fun wave => ?_⟩
    · have stored : judgePollAnswer (s.answeredAt l t) m w.number code (readBool posOk) fault w.number remaining =
          judgePollMoving (s.answeredAt l t) m remaining := by
        rcases hc with rfl | rfl <;> exact (if_neg (by decide)).trans (if_neg (not_not_intro rfl))
      have timing : ((s.answeredAt l t).line m.line).timing = (s.line m.line).timing := by
        rw [State.answeredAt, line_modLine]
        split <;> rfl
      rw [run (by rcases hc with rfl | rfl <;> decide), judged, stored, judgePollMoving, State.nextPoll, timing, robot,
        doneTest_waits hm']
      · rfl
      · exact fun _ => ⟨rfl, rfl⟩
    · rw [run (by decide), judged, judgePollAnswer, if_pos rfl, judgePollArmed_eq robot, alike.robot,
        doneTest_waits (u := (s.answeredAt l t).modRobot r _) hm']
      exact fun _ => ⟨rfl, rfl⟩
  · have kept : judgeEnd (s.answeredAt l t) l (.poll r) false (.polled code (readBool posOk) fault wave remaining) =
        s.answeredAt l t := by
      show doneTest (judgePoll _ r _) = _
      rw [judgePoll_idle (by rw [alike.robot]; exact idle), doneTest_open (waveOpen_congr alike.wave stillOpen)]
    rw [run hc, kept]

end Sys2Proof.Machine
end

section
/-!
O46: the end of a broadcast.
-/

namespace Sys2Proof.Machine

variable {s b : State} {l : LineNo} {t : Time} {x : Txn} {f : FrameKind} {r : RobotNo} {w : Wave} {g : GoFlag} {now : Nat}

/-! ### A robot started (R93) -/

/-- A member as the end of its line's GO starts it (R93). -/
def Member.startedAt (now : Nat) (m : Member) : Member :=
  { m with goTime := some now, deadline := some (overrunDeadlineOf m now), remaining := m.plan.n }

/-- Robot `r` started on line `l` by a GO that ends at a time (R93, R95). -/
def State.startRobot (l : LineNo) (now : Nat) (s : State) (r : RobotNo) : State :=
  ((s.setSlot r .moving).modMember r (Member.startedAt now)).joinCycle l r
    (now + (s.line l).timing.pollPeriod.toNat * 1000)

theorem startMember_eq (s : State) (l : LineNo) (m : Member) : s.startMember l m = s.startRobot l s.now m.robot := rfl

theorem startRobot_now (s : State) (r : RobotNo) : (s.startRobot l now r).now = s.now :=
  congrArg BitVec.toNat (State.modMember_timer ..)

theorem joinCycle_changes (s : State) (l : LineNo) (r : RobotNo) (due : Nat) {rs : List RobotNo} :
    ChangesAll id id rs s (s.joinCycle l r due) := .modLine l fun e => by split <;> rfl

theorem startRobot_changes (s : State) (r : RobotNo) :
    ChangesAll (Member.startedAt now) (fun b => { b with slot := .moving }) [r] s (s.startRobot l now r) :=
  ((ChangesAll.modRobot r fun b => { b with slot := .moving }).comp (.modMember r (Member.startedAt now))
    fun _ => ⟨rfl, rfl⟩).thenRobots (joinCycle_changes ..)

theorem startRobot_zones_events (s : State) (r : RobotNo) :
    (s.startRobot l now r).zones = s.zones ∧ (s.startRobot l now r).events = s.events :=
  ⟨State.modMember_zones .., State.modMember_events ..⟩

/-- A started robot joins the poll cycle of a line that is not DOWN, in the place of an older entry (R95). -/
theorem startRobot_cycle (up : (s.line l).state ≠ .down) (r : RobotNo) : ((s.startRobot l now r).line l).cycle =
    ((s.line l).cycle.filter fun p => p.robot ≠ r) ++ [⟨r, now + (s.line l).timing.pollPeriod.toNat * 1000⟩] := by
  rw [State.startRobot, State.joinCycle, line_modLine, if_pos rfl, line_modMember]
  exact congrArg Line.cycle (if_neg up)

/-! ### The robots of a GO (R93) -/

/-- The members that a GO starts, as robots started one after another at one time. -/
theorem foldl_startMember (ms : List Member) (s : State) :
    ms.foldl (fun s m => s.startMember l m) s = (ms.map Member.robot).foldl (State.startRobot l s.now) s := by
  induction ms generalizing s with
  | nil => rfl
  | cons m ms ih =>
    rw [List.foldl_cons, ih, startMember_eq, startRobot_now]
    rfl

/-- A member on line `l` with its robot ARMED. -/
def State.armedOn (s : State) (l : LineNo) (m : Member) : Bool :=
  decide (m.line = l) && decide ((s.robot m.robot).slot = .armed)

theorem armedOn_iff {m : Member} : s.armedOn l m = true ↔ m.line = l ∧ (s.robot m.robot).slot = .armed := by
  simp [State.armedOn]

theorem judgeGo_eq (hw : s.wave = some w) (number : w.number = g.wave) :
    judgeGo s l g = (s.memberRobots (s.armedOn l)).foldl (State.startRobot l s.now) s := by
  have armed : s.armedMembers l g.wave = s.undecidedMembers.filter (s.armedOn l) := by
    simp only [State.armedMembers, hw, State.undecidedMembers, State.members]
    exact if_pos number
  rw [judgeGo, armed, foldl_startMember]
  rfl

theorem foldl_startRobot (rs : List RobotNo) (s : State) :
    ChangesAll (Member.startedAt now) (fun b => { b with slot := .moving }) rs s (rs.foldl (State.startRobot l now) s) :=
  .foldl (x := Member.startedAt now) (y := fun b => { b with slot := .moving }) (fun _ => rfl) (fun _ => rfl)
    (fun _ => rfl) startRobot_changes rs s

theorem startRobot_engine (s : State) (q : RobotNo) : ((s.startRobot l now q).line l).state = (s.line l).state ∧
    ((s.startRobot l now q).line l).timing = (s.line l).timing := by
  rw [(startRobot_changes s q).lines]
  exact ⟨rfl, rfl⟩

/-- The cycle holds robot `r` with its next poll due at a time. -/
def PolledAt (cycle : List PollEntry) (r : RobotNo) (due : Nat) : Prop := ∃ p ∈ cycle, p.robot = r ∧ p.due = due

/-- Each started robot's first poll is due one POLL_PERIOD on (R95). -/
theorem foldl_startRobot_polled {rs : List RobotNo} (hr : r ∈ rs) (up : (s.line l).state ≠ .down) :
    PolledAt ((rs.foldl (State.startRobot l now) s).line l).cycle r
      (now + (s.line l).timing.pollPeriod.toNat * 1000) := by
  have joins {t : State} (h : (t.line l).state ≠ .down ∧ (t.line l).timing = (s.line l).timing) (q : RobotNo) :
      ((t.startRobot l now q).line l).cycle = ((t.line l).cycle.filter fun p => p.robot ≠ q) ++
        [⟨q, now + (s.line l).timing.pollPeriod.toNat * 1000⟩] := by
    rw [startRobot_cycle h.1, h.2]
  have keeps {t : State} (h : (t.line l).state ≠ .down ∧ (t.line l).timing = (s.line l).timing) (q : RobotNo) :
      ((t.startRobot l now q).line l).state ≠ .down ∧ ((t.startRobot l now q).line l).timing = (s.line l).timing := by
    obtain ⟨state, timing⟩ := startRobot_engine (l := l) (now := now) t q
    exact ⟨state ▸ h.1, timing.trans h.2⟩
  refine (foldl_establishes (P := fun t => ((t.line l).state ≠ .down ∧ (t.line l).timing = (s.line l).timing) ∧
      PolledAt (t.line l).cycle r (now + (s.line l).timing.pollPeriod.toNat * 1000))
    (I := fun t => (t.line l).state ≠ .down ∧ (t.line l).timing = (s.line l).timing) hr
    (fun t q h => keeps h q) (fun t h => ⟨keeps h r, ?_⟩) (fun t q h => ⟨keeps h.1 q, ?_⟩) ⟨up, rfl⟩).2
  · rw [joins h]
    exact ⟨_, List.mem_append_right _ (List.mem_singleton_self _), rfl, rfl⟩
  · obtain ⟨up, p, hp, robot, due⟩ := h
    rw [joins up]
    by_cases here : r = q
    · exact ⟨_, List.mem_append_right _ (List.mem_singleton_self _), here.symm, rfl⟩
    · exact ⟨p, List.mem_append_left _ (List.mem_filter.2 ⟨hp, decide_eq_true (robot ▸ here)⟩), robot, due⟩

/-! ### The end of a GO (R93) -/

/-- From `b` to `v` the end of a GO on line `l` has started the ARMED members of wave `w`. -/
structure GoStarts (b v : State) (l : LineNo) (w : Wave) : Prop where
  started : ∀ m ∈ w.members, m.outcome = .none → m.line = l → (b.robot m.robot).slot = .armed →
    v.robot m.robot = { b.robot m.robot with slot := .moving } ∧
    PolledAt (v.line l).cycle m.robot (b.now + (b.line l).timing.pollPeriod.toNat * 1000) ∧
    m.startedAt b.now ∈ v.members
  others : ∀ r, (∀ m ∈ w.members, m.outcome = .none → m.line = l → (b.robot m.robot).slot = .armed → m.robot ≠ r) →
    v.robot r = b.robot r
  zones : v.zones = b.zones
  events : v.events = b.events
  line : v.line l = { b.line l with normal := (v.line l).normal, cycle := (v.line l).cycle }

theorem judgeGo_starts (hw : b.wave = some w) (number : w.number = g.wave) (distinct : (w.members.map Member.robot).Nodup)
    (up : (b.line l).state ≠ .down) : GoStarts b (judgeGo b l g) l w := by
  rw [judgeGo_eq hw number]
  have changes := foldl_startRobot (l := l) (now := b.now) (b.memberRobots (b.armedOn l)) b
  have same := foldl_keeps (f := State.startRobot l b.now) (P := fun t => t.zones = b.zones ∧ t.events = b.events)
    (fun t q h => ⟨(startRobot_zones_events t q).1.trans h.1, (startRobot_zones_events t q).2.trans h.2⟩)
    (b.memberRobots (b.armedOn l)) ⟨rfl, rfl⟩
  refine ⟨fun m hm undecided line slot => ?_, fun r none => ?_, same.1, same.2, changes.lines l⟩
  · have chosen : m.robot ∈ b.memberRobots (b.armedOn l) :=
      (mem_memberRobots hw distinct hm undecided).2 (armedOn_iff.2 ⟨line, slot⟩)
    refine ⟨(changes.robots _).trans (if_pos chosen), foldl_startRobot_polled chosen up, ?_⟩
    have wave := changes.wave
    rw [hw] at wave
    rw [members_of_wave wave]
    exact List.mem_map.2 ⟨m, hm, if_pos ⟨chosen, undecided⟩⟩
  · refine (changes.robots r).trans (if_neg fun chosen => ?_)
    obtain ⟨m, hm, undecided, armed, robot⟩ := (mem_memberRobots_iff hw).1 chosen
    obtain ⟨line, slot⟩ := armedOn_iff.1 armed
    exact none m hm undecided line slot robot

/-! ### The end of a broadcast (R129, R135) -/

theorem sendingBroadcast (phase : x.phase = .sending f) (broadcast : f.isBroadcast = true) :
    x.sendingFrame?.any FrameKind.isBroadcast = true := by
  rw [Txn.sendingFrame?, phase]
  exact broadcast

/-- A broadcast in flight ends answered (R129). -/
theorem exec_broadcastSent (running : s.resetLow = false) (clear : (s.line l).residue = none)
    (txn : (s.line l).txn = some x) (phase : x.phase = .sending f) (broadcast : f.isBroadcast = true) :
    exec (.broadcastSent l t) s = .next (judgeEnd (s.endedAt l t) l x.kind x.stale .accepted) := by
  refine (running_run running fun s => broadcastEnds (s.clock t) l).trans (congrArg _ ?_)
  unfold broadcastEnds
  dsimp only
  rw [show (s.clock t).line l = s.line l from rfl, clear, txn]
  dsimp only
  rw [if_pos (sendingBroadcast phase broadcast), finishTxn, State.touchLine, State.freeEngine, modLine_modLine]
  rfl

/-- A broadcast that a LINE_RESET let end is handed over (R135). -/
theorem exec_broadcastSent_kept (running : s.resetLow = false) (kept : (s.line l).residue = some ⟨x, true⟩)
    (phase : x.phase = .sending f) (broadcast : f.isBroadcast = true) :
    exec (.broadcastSent l t) s = .next (judgeEnd ((s.clock t).modLine l fun e =>
      { e with lastChar := (s.clock t).now, residue := none }) l x.kind x.stale .accepted) := by
  refine (running_run running fun s => broadcastEnds (s.clock t) l).trans (congrArg _ ?_)
  unfold broadcastEnds
  dsimp only
  rw [show (s.clock t).line l = s.line l from rfl, kept]
  dsimp only
  rw [if_pos (sendingBroadcast phase broadcast), if_pos rfl, State.touchLine, State.clearResidue, modLine_modLine]

/-- The overrun deadline counts the duration, or the home limit, and the grace from the GO time (R93). -/
theorem startedAt_eq (m : Member) (now : Nat) : m.startedAt now = { m with
    goTime := some now, remaining := m.plan.n
    deadline := some (now + ((match m.plan.body with
      | .segment g => g.n.toNat | .home _ _ => m.homeLimit.toNat) + m.grace.toNat) * 1000) } := by
  rw [Member.startedAt, overrunDeadlineOf]
  cases m.plan.body <;> rfl

/-- A GO, in flight or let end by a LINE_RESET, is judged on a line that is not DOWN and holds nothing more of it (R93, R135). -/
theorem exec_goSent (running : s.resetLow = false)
    (ends : ((s.line l).residue = none ∧ (s.line l).txn = some x) ∨
      (s.line l).residue = some ⟨x, true⟩ ∧ (s.line l).state ≠ .down)
    (kind : x.kind = .go g) (phase : x.phase = .sending (.go g)) : ∃ change : Line → Line,
    ((change (s.line l)).state ≠ .down ∧ (change (s.line l)).timing = (s.line l).timing ∧
      (change (s.line l)).residue = none ∧ ((s.line l).residue = none ∧ (s.line l).txn = some x →
        (change (s.line l)).state = .idle ∧ (change (s.line l)).txn = none)) ∧
      exec (.broadcastSent l t) s = .next (judgeGo ((s.clock t).modLine l change) l g) := by
  rcases ends with ⟨clear, txn⟩ | ⟨kept, up⟩
  · have run := exec_broadcastSent (t := t) running clear txn phase rfl
    rw [kind] at run
    exact ⟨fun e => { e with lastChar := (s.clock t).now, state := .idle, txn := none },
      ⟨nofun, rfl, clear, fun _ => ⟨rfl, rfl⟩⟩, run⟩
  · have run := exec_broadcastSent_kept (t := t) running kept phase rfl
    rw [kind] at run
    refine ⟨fun e => { e with lastChar := (s.clock t).now, residue := none }, ⟨up, rfl, rfl, fun flight => ?_⟩, run⟩
    exact nomatch flight.1.symm.trans kept

/-- Settles O46: a HALT broadcast is not judged; a GO, in flight or let end by a LINE_RESET, starts its line's members. -/
theorem broadcastEnds_outcome : Obligations.BroadcastEnds := by
  intro s l t x running
  refine ⟨fun flight kind phase => ?_, fun g w ends kind phase hw number distinct => ?_⟩
  · rw [exec_broadcastSent running flight.1 flight.2 phase rfl, kind]
    rfl
  · obtain ⟨change, ⟨up, timing, residue, free⟩, run⟩ := exec_goSent (t := t) running ends kind phase
    have here : ((s.clock t).modLine l change).line l = change (s.line l) := (line_modLine ..).trans (if_pos rfl)
    have go := judgeGo_starts (b := (s.clock t).modLine l change) (l := l) hw number distinct (by rw [here]; exact up)
    have line := go.line
    rw [here] at line
    refine ⟨_, run, ?_, fun flight => ?_, fun m ⟨hm, undecided, on, slot⟩ => ?_, fun r none => ?_, go.zones, go.events⟩
    · rw [line]; exact residue
    · rw [line]; exact free flight
    · obtain ⟨robot, polled, member⟩ := go.started m hm undecided on slot
      rw [here, timing] at polled
      rw [startedAt_eq] at member
      exact ⟨robot, polled, member⟩
    · exact go.others r fun m hm undecided on slot => none m ⟨hm, undecided, on, slot⟩

end Sys2Proof.Machine
end

section
/-!
O60: work offered to a list in which its robot may stand already.
-/

namespace Sys2Proof.Machine

variable {r : RobotNo}

/-! ### A list in which one entry at most is the robot's -/

section

variable {α : Type} {key : α → RobotNo} {xs before after : List α} {x : α}

theorem any_unlisted (others : ∀ y ∈ xs, key y ≠ r) : (xs.any fun y => decide (key y = r)) = false :=
  List.any_eq_false.2 fun y hy here => others y hy (of_decide_eq_true here)

theorem any_listed (here : key x = r) : ((before ++ x :: after).any fun y => decide (key y = r)) = true :=
  List.any_eq_true.2 ⟨x, List.mem_append_right _ List.mem_cons_self, decide_eq_true here⟩

theorem others_split (others : ∀ y ∈ before ++ after, key y ≠ r) :
    (∀ y ∈ before, key y ≠ r) ∧ ∀ y ∈ after, key y ≠ r :=
  ⟨fun y hy => others y (List.mem_append_left _ hy), fun y hy => others y (List.mem_append_right _ hy)⟩

theorem map_unlisted (g : α → α) (others : ∀ y ∈ xs, key y ≠ r) :
    (xs.map fun y => if key y = r then g y else y) = xs :=
  (List.map_congr_left fun y hy => if_neg (others y hy)).trans (List.map_id' xs)

/-- A change of the robot's entry happens in its place. -/
theorem map_listed (g : α → α) (others : ∀ y ∈ before ++ after, key y ≠ r) (here : key x = r) :
    ((before ++ x :: after).map fun y => if key y = r then g y else y) = before ++ g x :: after := by
  obtain ⟨left, right⟩ := others_split others
  rw [List.map_append, List.map_cons, map_unlisted g left, map_unlisted g right, if_pos here]

theorem filter_unlisted (others : ∀ y ∈ xs, key y ≠ r) : (xs.filter fun y => decide (key y ≠ r)) = xs :=
  List.filter_eq_self.2 fun y hy => decide_eq_true (others y hy)

/-- A removal of the robot's entry closes the list over its place. -/
theorem filter_listed (others : ∀ y ∈ before ++ after, key y ≠ r) (here : key x = r) :
    ((before ++ x :: after).filter fun y => decide (key y ≠ r)) = before ++ after := by
  obtain ⟨left, right⟩ := others_split others
  rw [List.filter_append, List.filter_cons_of_neg (by simpa using here), filter_unlisted left, filter_unlisted right]

theorem any_and_unlisted (p : α → Bool) (others : ∀ y ∈ xs, key y ≠ r) :
    (xs.any fun y => decide (key y = r) && p y) = false :=
  List.any_eq_false.2 fun y hy both => others y hy (of_decide_eq_true (Bool.and_eq_true_iff.1 both).1)

/-- A test of the robot's entries reads the one it has. -/
theorem any_and_listed (p : α → Bool) (others : ∀ y ∈ before ++ after, key y ≠ r) (here : key x = r) :
    ((before ++ x :: after).any fun y => decide (key y = r) && p y) = p x := by
  obtain ⟨left, right⟩ := others_split others
  rw [List.any_append, List.any_cons, any_and_unlisted p left, any_and_unlisted p right, decide_eq_true here,
    Bool.or_false, Bool.true_and, Bool.false_or]

end

/-! ### The urgent list (R119) -/

theorem offer_urgent_unlisted {u : List UrgentEntry} (others : ∀ x ∈ u, x.robot ≠ r) :
    offerHaltTo u r = u ++ [⟨r, .halt⟩] ∧ offerClearTo u r = u ++ [⟨r, .clear⟩] := by
  have fresh := any_unlisted (key := UrgentEntry.robot) others
  rw [offerHaltTo, offerClearTo, fresh]
  exact ⟨rfl, rfl⟩

/-- A HALT single merges into what stands; a CLEAR takes the place of it. -/
theorem offer_urgent_listed {before after : List UrgentEntry} (k : UrgentKind)
    (others : ∀ x ∈ before ++ after, x.robot ≠ r) :
    offerHaltTo (before ++ ⟨r, k⟩ :: after) r = before ++ ⟨r, k⟩ :: after ∧
      offerClearTo (before ++ ⟨r, k⟩ :: after) r = before ++ ⟨r, .clear⟩ :: after := by
  have listed := any_listed (key := UrgentEntry.robot) (x := ⟨r, k⟩) (before := before) (after := after) rfl
  rw [offerHaltTo, offerClearTo, if_pos listed, if_pos listed]
  exact ⟨rfl, map_listed (key := UrgentEntry.robot) (fun _ => ⟨r, .clear⟩) others rfl⟩

/-! ### The normal list (R120) -/

theorem offer_normal_unlisted {n : List NormalEntry} (others : ∀ x ∈ n, x.robot ≠ r) (a b : Bool) :
    offerReadTo n r a b = n ++ [⟨r, false, a, b⟩] ∧ offerDeliverTo n r = n ++ [⟨r, true, false, false⟩] := by
  constructor
  · rw [offerReadTo, any_unlisted (key := NormalEntry.robot) others]
    rfl
  · rw [offerDeliverTo, filter_unlisted (key := NormalEntry.robot) others,
      any_and_unlisted (key := NormalEntry.robot) NormalEntry.refresh others,
      any_and_unlisted (key := NormalEntry.robot) NormalEntry.readBack others]

/-- A READ merges with a listed READ, or joins a listed DELIVER. -/
theorem offerReadTo_listed {before after : List NormalEntry} {d a b : Bool}
    (others : ∀ x ∈ before ++ after, x.robot ≠ r) (a' b' : Bool) :
    offerReadTo (before ++ ⟨r, d, a, b⟩ :: after) r a' b' = before ++ ⟨r, d, a || a', b || b'⟩ :: after :=
  (if_pos (any_listed (key := NormalEntry.robot) rfl)).trans (map_listed (key := NormalEntry.robot)
    (fun x => { x with refresh := x.refresh || a', readBack := x.readBack || b' }) others rfl)

/-- A DELIVER takes the robot's READ with it to the tail. -/
theorem offerDeliverTo_listed {before after : List NormalEntry} {d a b : Bool}
    (others : ∀ x ∈ before ++ after, x.robot ≠ r) :
    offerDeliverTo (before ++ ⟨r, d, a, b⟩ :: after) r = before ++ after ++ [⟨r, true, a, b⟩] := by
  rw [offerDeliverTo, filter_listed (key := NormalEntry.robot) others rfl,
    any_and_listed (key := NormalEntry.robot) NormalEntry.refresh others rfl,
    any_and_listed (key := NormalEntry.robot) NormalEntry.readBack others rfl]

/-- A DELIVER removed leaves the READ joined to it in its place. -/
theorem dropDeliver_listed {before after : List NormalEntry} {d a b : Bool}
    (others : ∀ x ∈ before ++ after, x.robot ≠ r) : dropDeliver (before ++ ⟨r, d, a, b⟩ :: after) r =
      before.filter NormalEntry.live ++ (if a || b then [⟨r, false, a, b⟩] else []) ++ after.filter NormalEntry.live := by
  rw [dropDeliver, map_listed (key := NormalEntry.robot) (fun x => { x with deliver := false }) others rfl,
    List.filter_append, List.filter_cons, List.append_assoc]
  have live : NormalEntry.live ⟨r, false, a, b⟩ = (a || b) := Bool.false_or _
  rw [live]
  split <;> rfl

/-- Settles O60: each offer by whether its robot stands in the list, and what a removed DELIVER leaves. -/
theorem offersMergeInPlace : Obligations.OffersMergeInPlace := fun _ =>
  ⟨fun _ => offer_urgent_unlisted, fun _ _ => offer_urgent_listed, fun _ => offer_normal_unlisted,
    fun _ _ _ _ _ others => ⟨offerReadTo_listed others, offerDeliverTo_listed others, dropDeliver_listed others⟩⟩

end Sys2Proof.Machine
end

section
/-!
O39: an event of one line.
-/

namespace Sys2Proof.Machine

variable {s u : State} {l : LineNo} {c : Instr}

namespace OnLine

/-- An operation of line `l`'s engine at time `t`, which has no effect while RESET_N is low (R172). -/
theorem of_running {t : Time} (h : OnLine l (s.clock t) u) : ∃ time, OnLine l (s.clock time) (if s.resetLow then s else u) := by
  split
  · exact ⟨0, refl s⟩
  · exact ⟨t, h⟩

/-- Every line event is, at some time, an operation of its line's engine. -/
theorem exec (event : eventLine c = some l) : ∃ t time, exec c s = .next t ∧ OnLine l (s.clock time) t := by
  suffices ∃ u t, Machine.exec c s = running s (fun _ => u) ∧ OnLine l (s.clock t) u by
    obtain ⟨u, t, run, frame⟩ := this
    obtain ⟨time, kept⟩ := frame.of_running
    exact ⟨_, time, run, kept⟩
  cases c <;> cases event
  case lineArbiterChoose => exact ⟨_, _, rfl, .arbiter⟩
  case lineFrameSent => exact ⟨_, _, rfl, .frameSent⟩
  case broadcastSent => exact ⟨_, _, rfl, .broadcastEnds⟩
  case nextFrameSend | endFrameSend => exact ⟨_, _, rfl, .nextFrame _⟩
  case endSent => exact ⟨_, _, rfl, .endEnds⟩
  case answerReady | answerNotReady | answerAccept | answerRetry | answerRefuse | answerPoll | answerStatus |
      answerGarbled =>
    exact ⟨_, _, rfl, .receiveAnswer _⟩
  case answerWaitSilence => exact ⟨_, _, rfl, .waitSilence⟩
  case answerCharGap | readAnswerDeadline => exact ⟨_, _, rfl, .cutShort _⟩
  case strayCharacter => exact ⟨_, _, rfl, .touch⟩
  case answerBegun => exact ⟨_, _, rfl, .beginAnswer⟩

end OnLine

/-- Settles O39: what an operation of one line's engine leaves unchanged, read off part by part. -/
theorem lineEventsStayOnTheirLine : Obligations.LineEventsStayOnTheirLine := by
  intro c l s event
  obtain ⟨t, time, run, frame⟩ := OnLine.exec (s := s) event
  obtain ⟨raised, events⟩ := frame.events
  have masks : t.events.masks = s.events.masks := by rw [events, Events.raises_masks]; rfl
  refine ⟨t, run, frame.trunk, frame.epoch, frame.curves, frame.profiles, frame.openWave, frame.static, frame.members,
    masks, frame.timing, fun k other => ?_⟩
  have core : (t.line k).core = (s.line k).core := frame.core k other
  simp only [Line.core, Prod.mk.injEq] at core
  obtain ⟨state, txn, residue, silence, counters, -, lastChar⟩ := core
  exact ⟨state, txn, residue, silence, counters, lastChar⟩

end Sys2Proof.Machine
end

section
/-!
SUPPORT. What the engine's operations do to a line that carries an exchange, or what is left of an abandoned one, said once for
each phase that an operation reads.
-/

namespace Sys2Proof.Machine

variable {s : State} {l : LineNo} {x : Txn} {ρ : Residue} {f : FrameKind} {since now : Nat}
  {a : Option Answer} {timing : Timing}

/-- A command of the running part has its effect. -/
theorem exec_running {c : Instr} {u v : State} (running : s.resetLow = false)
    (arm : exec c s = .next (if s.resetLow then s else v)) (effect : v = u) : exec c s = .next u := by
  rw [arm, running, if_neg (by decide), effect]

/-! ### The last character of a frame -/

theorem sendingFrame?_of_sending (sending : x.phase = .sending f) : x.sendingFrame? = some f := by
  rw [Txn.sendingFrame?, sending]

/-- A frame that awaits an answer begins its wait (R131). -/
theorem frameSent_txn (clear : (s.line l).residue = none) (txn : (s.line l).txn = some x) (sending : x.phase = .sending f)
    (awaits : f.awaits = true) : frameSent s l =
      s.modLine l fun e => { e with txn := some { x with phase := .waiting f s.now }, lastChar := s.now } := by
  simp only [frameSent, clear, txn, sendingFrame?_of_sending sending, if_pos awaits]
  exact (modLine_modLine ..).trans (modLine_congr rfl)

/-- The frame of an abandoned transaction is completed, and its answer is looked for (R136). -/
theorem frameSent_residue (left : (s.line l).residue = some ρ) (sending : ρ.txn.phase = .sending f)
    (awaits : f.awaits = true) : frameSent s l = s.modLine l fun e =>
      { e with residue := some { ρ with txn := { ρ.txn with phase := .waiting f s.now } }, lastChar := s.now } := by
  simp only [frameSent, left, sendingFrame?_of_sending sending, if_pos awaits]
  exact modLine_modLine ..

theorem endEnds_residue (left : (s.line l).residue = some ρ) (sending : ρ.txn.phase = .sending .endFrame) :
    endEnds s l = s.modLine l fun e => { e with residue := none, lastChar := s.now } := by
  simp only [endEnds, left, sendingFrame?_of_sending sending, Option.any_some, FrameKind.isEnd, if_true]
  exact modLine_modLine ..

theorem broadcastEnds_residue (left : (s.line l).residue = some ρ) (sending : ρ.txn.phase = .sending f)
    (broadcast : f.isBroadcast = true) (silent : ρ.handOver = false) :
    broadcastEnds s l = s.modLine l fun e => { e with residue := none, lastChar := s.now } := by
  simp only [broadcastEnds, left, sendingFrame?_of_sending sending, Option.any_some, if_pos broadcast, silent,
    Bool.false_eq_true, if_false]
  exact modLine_modLine ..

/-! ### The first character of an answer -/

theorem begun?_of_waiting (waiting : x.phase = .waiting f since) : x.begun? now =
    if now ≤ since + answerLimit x.timing f then some (.receiving f since) else none := by
  rw [Txn.begun?, waiting]

theorem beginAnswer_txn (clear : (s.line l).residue = none) (txn : (s.line l).txn = some x)
    (waiting : x.phase = .waiting f since) (intime : s.now ≤ since + answerLimit x.timing f) : beginAnswer s l =
      s.modLine l fun e => { e with txn := some { x with phase := .receiving f since }, lastChar := s.now } := by
  simp only [beginAnswer, clear, txn, begun?_of_waiting waiting, if_pos intime]
  exact (modLine_modLine ..).trans (modLine_congr rfl)

theorem beginAnswer_txn_late (clear : (s.line l).residue = none) (txn : (s.line l).txn = some x)
    (waiting : x.phase = .waiting f since) (late : since + answerLimit x.timing f < s.now) :
    beginAnswer s l = s.touchLine l := by
  simp only [beginAnswer, clear, txn, begun?_of_waiting waiting, if_neg (Nat.not_le.2 late)]

theorem beginAnswer_residue (left : (s.line l).residue = some ρ) (waiting : ρ.txn.phase = .waiting f since)
    (intime : s.now ≤ since + answerLimit ρ.txn.timing f) : beginAnswer s l = s.modLine l fun e =>
      { e with residue := some { ρ with txn := { ρ.txn with phase := .receiving f since } }, lastChar := s.now } := by
  simp only [beginAnswer, left, begun?_of_waiting waiting, if_pos intime]
  exact modLine_modLine ..

theorem beginAnswer_residue_late (left : (s.line l).residue = some ρ) (waiting : ρ.txn.phase = .waiting f since)
    (late : since + answerLimit ρ.txn.timing f < s.now) : beginAnswer s l = s.touchLine l := by
  simp only [beginAnswer, left, begun?_of_waiting waiting, if_neg (Nat.not_le.2 late)]

/-! ### The end of an answer -/

theorem answerValid_any_unfit (unfit : ∀ b, a = some b → answerFits f b = false) :
    a.any (answerValid timing f since now) = false := by
  cases a with
  | none => rfl
  | some b => rw [Option.any_some, answerValid, unfit b rfl]; rfl

/-- An answer that is not valid for its frame is garbled (R132). -/
theorem receiveAnswer_invalid (clear : (s.line l).residue = none) (txn : (s.line l).txn = some x)
    (answered : x.answered? s.now = some (f, since)) (invalid : a.any (answerValid x.timing f since s.now) = false) :
    receiveAnswer s l a = garbledAnswer (s.touchLine l) l x f := by
  simp only [receiveAnswer, clear, txn, answered, receiveAnswer.judgeAnswer]
  cases a with
  | none => rfl
  | some b => exact if_neg (by rw [Option.any_some] at invalid; rw [invalid]; decide)

theorem answered?_late (waiting : x.phase = .waiting f since) (late : since + answerLimit x.timing f < now) :
    x.answered? now = none := by
  rw [Txn.answered?, waiting]
  exact if_neg (Nat.not_le.2 late)

/-- An answer that comes after its limit restarts the quiet time alone (R122). -/
theorem receiveAnswer_late (clear : (s.line l).residue = none) (txn : (s.line l).txn = some x)
    (waiting : x.phase = .waiting f since) (late : since + answerLimit x.timing f < s.now) (a : Option Answer) :
    receiveAnswer s l a = s.touchLine l := by
  simp only [receiveAnswer, clear, txn, answered?_late waiting late]

/-- The answer to an abandoned transaction goes to no rule (R136). -/
theorem receiveAnswer_residue (left : (s.line l).residue = some ρ) (answered : ρ.txn.answered? s.now = some (f, since)) :
    receiveAnswer s l a = residueAnswer (s.touchLine l) l (a.any (answerValid ρ.txn.timing f since s.now)) := by
  simp only [receiveAnswer, left, answered]

/-- The drop that the bytes of an answer are judged for (R132). -/
theorem answerDrop_txn (clear : (s.line l).residue = none) (txn : (s.line l).txn = some x) :
    (s.line l).answerDrop = x.drop := by rw [Line.answerDrop, clear, txn]

theorem answerDrop_residue (left : (s.line l).residue = some ρ) : (s.line l).answerDrop = ρ.txn.drop := by
  rw [Line.answerDrop, left]

theorem residueAnswer_valid (s : State) (l : LineNo) : residueAnswer s l true = s.clearResidue l := rfl

theorem residueAnswer_garbled (s : State) (l : LineNo) : residueAnswer s l false = s.modLine l fun e =>
    { e with residue := none, counters := { e.counters with garbled := countUp e.counters.garbled } } :=
  (if_neg (by decide)).trans (modLine_modLine ..)

/-- The answer to an abandoned transaction may begin within its limit, or have begun (R136). -/
theorem answered?_of_arriving
    (arriving : (x.phase = .waiting f since ∧ now ≤ since + answerLimit x.timing f) ∨ x.phase = .receiving f since) :
    x.answered? now = some (f, since) :=
  answered?_of_phase (arriving.imp_left And.left) fun waiting =>
    arriving.elim And.right fun receiving => nomatch waiting.symm.trans receiving

theorem receiveAnswer_residue_valid (left : (s.line l).residue = some ρ)
    (answered : ρ.txn.answered? s.now = some (f, since))
    (valid : a.any (answerValid ρ.txn.timing f since s.now) = true) :
    receiveAnswer s l a = s.modLine l fun e => { e with residue := none, lastChar := s.now } := by
  rw [receiveAnswer_residue left answered, valid, residueAnswer_valid]
  exact modLine_modLine ..

theorem receiveAnswer_residue_invalid (left : (s.line l).residue = some ρ)
    (answered : ρ.txn.answered? s.now = some (f, since))
    (invalid : a.any (answerValid ρ.txn.timing f since s.now) = false) :
    receiveAnswer s l a = s.modLine l fun e => { e with
      residue := none, counters := { e.counters with garbled := countUp e.counters.garbled }, lastChar := s.now } := by
  rw [receiveAnswer_residue left answered, invalid, residueAnswer_garbled]
  exact modLine_modLine ..

/-! ### An answer cut short -/

/-- Line `l` when an answer on it is cut short: its last character came four character times before, or later (log entry 6). -/
def State.cutLine (s : State) (l : LineNo) : State :=
  s.modLine l fun e => { e with lastChar := max e.lastChar (s.now - Config.charGap) }

/-- An answer begun is cut short by a gap; a STATUS answer also by the limit it passes (R131). -/
theorem cutShort_txn (clear : (s.line l).residue = none) (txn : (s.line l).txn = some x)
    (receiving : x.phase = .receiving f since) {readOnly : Bool}
    (due : readOnly = true → cutShort.overdue s x.timing f since = true) :
    cutShort s l readOnly = garbledAnswer (s.cutLine l) l x f := by
  simp only [cutShort, clear, txn, receiving]
  refine if_neg fun kept => ?_
  obtain ⟨only, early⟩ := Bool.and_eq_true_iff.1 kept
  rw [due only] at early
  exact absurd early (by decide)

theorem cutShort_residue (left : (s.line l).residue = some ρ) (receiving : ρ.txn.phase = .receiving f since) :
    cutShort s l false = residueAnswer (s.cutLine l) l false := by
  simp only [cutShort, left, receiving]
  rfl

/-! ### A wait that ends in silence -/

/-- Silence below DOWN_LIMIT is counted and uses the attempt (R131, R133). -/
theorem waitSilence_below (txn : (s.line l).txn = some x) (waiting : x.phase = .waiting f since)
    (silent : since + answerLimit x.timing f ≤ s.now) (below : (s.line l).silence + 1 < x.timing.downLimit.toNat) :
    waitSilence s l = attemptFailed (s.countSilence l) l x f 0 := by
  simp only [waitSilence, txn, waiting, if_pos silent, silentWait]
  refine if_neg ?_
  rw [State.countSilence, line_modLine, if_pos rfl]
  exact Nat.not_le.2 below

/-! ### The next frame -/

theorem gapPassed_of_quiet {e : Line} {notBefore : Nat}
    (quiet : e.lastChar + x.timing.tGap.toNat ≤ now ∧ notBefore ≤ now) : e.gapPassed x notBefore now = true :=
  Bool.and_eq_true_iff.2 ⟨decide_eq_true quiet.1, decide_eq_true quiet.2⟩

/-- After the quiet gap the END frame is sent (R130). -/
theorem nextFrame_end {notBefore : Nat} (txn : (s.line l).txn = some x) (gap : x.phase = .gap .endFrame notBefore)
    (quiet : (s.line l).lastChar + x.timing.tGap.toNat ≤ s.now ∧ notBefore ≤ s.now) :
    nextFrame s l true = s.modLine l fun e => { e with txn := some { x with phase := .sending .endFrame } } := by
  simp only [nextFrame, txn, gap, gapPassed_of_quiet quiet, FrameKind.isEnd, decide_true, Bool.and_self, if_true]
  exact modLine_congr rfl

/-- After the quiet gap any other frame is sent as an attempt (R126, R131). -/
theorem nextFrame_attempt {notBefore : Nat} (txn : (s.line l).txn = some x) (gap : x.phase = .gap f notBefore)
    (quiet : (s.line l).lastChar + x.timing.tGap.toNat ≤ s.now ∧ notBefore ≤ s.now) (other : f.isEnd = false) :
    nextFrame s l false = sendFrame s l x f := by
  simp only [nextFrame, txn, gap, gapPassed_of_quiet quiet, other, decide_true, Bool.and_self, if_true,
    Bool.false_eq_true, if_false]

/-- A body uses a body attempt, and is a retry unless it is the first (R127, R138). -/
theorem sendFrame_body (body : f.isBody = true) : sendFrame s l x f = s.modLine l fun e => { e with
    txn := some { x with phase := .sending f, bodies := x.bodies + 1 }
    counters := { e.counters with
      retries := if x.bodies = 0 then e.counters.retries else countUp e.counters.retries } } := by
  simp only [sendFrame, if_pos body]
  split
  · exact modLine_congr rfl
  · exact (modLine_modLine ..).trans (modLine_congr rfl)

/-- A call or short frame sent again uses a call attempt and is a retry (R126, R128, R138). -/
theorem sendFrame_again (again : f.isBody = false) : sendFrame s l x f = s.modLine l fun e => { e with
    txn := some { x with phase := .sending f, calls := x.calls + 1 }
    counters := { e.counters with retries := countUp e.counters.retries } } := by
  simp only [sendFrame, again, Bool.false_eq_true, if_false]
  exact (modLine_modLine ..).trans (modLine_congr rfl)

/-! ### An attempt used -/

/-- An attempt at frame `f` used without a final answer, and not the last of a short transaction (R126 to R128). -/
theorem attemptFailed_left (left : attemptLeft x f) (s : State) : attemptFailed s l x f 0 =
    s.setTxn l (afterAttempt x f).1 { x with phase := .gap (afterAttempt x f).2 0 } := by
  obtain ⟨awaits, short⟩ := left
  cases f with
  | call =>
    simp only [attemptFailed, afterAttempt]
    split <;> rfl
  | body => rfl
  | readRequest => rfl
  | clear => exact if_pos (short (.inl rfl))
  | halt => exact if_pos (short (.inr (.inl rfl)))
  | poll => exact if_pos (short (.inr (.inr rfl)))
  | endFrame => cases awaits
  | go => cases awaits
  | haltAll => cases awaits

/-- A garbled answer is counted, sets the silence count to 0 and uses the attempt (R132, R133, R138). -/
theorem garbledAnswer_left (left : attemptLeft x f) (s : State) (g : Line → Line) :
    garbledAnswer (s.modLine l g) l x f = s.modLine l fun e => { g e with
      state := (afterAttempt x f).1, txn := some { x with phase := .gap (afterAttempt x f).2 0 }, silence := 0
      counters := { (g e).counters with garbled := countUp (g e).counters.garbled } } := by
  rw [garbledAnswer, attemptFailed_left left, State.setTxn, State.heard, State.countGarbled, modLine_modLine,
    modLine_modLine, modLine_modLine]

end Sys2Proof.Machine
end

section
/-!
O42, O43: the answers to a call and to a body, and the ways to use an attempt.
-/

namespace Sys2Proof.Machine

variable {s : State} {l : LineNo} {t : Time} {x : Txn} {f : FrameKind} {since : Nat}

/-! ### Calls and bodies answered (R126, R127) -/

/-- A valid answer in time to a call or a body is taken on a line that has just heard it. -/
theorem receiveAnswer_heardAt (h : Answering s l t x f since) {a : Answer} (fits : answerFits f a = true)
    (code : a.codeOk = true) (other : f ≠ .readRequest) :
    receiveAnswer (s.clock t) l (some a) = takeAnswer (s.heardAt l t) l x f a := by
  rw [receiveAnswer_valid h.toExchanging h.inTime (fun e => absurd e other) fits code, State.touchLine, State.heard,
    modLine_modLine]
  rfl

/-- Settles O42: each of the three answers is valid for its frame, and is taken by its rule. -/
theorem callAndBodyAnswers : Obligations.CallAndBodyAnswers := by
  intro s l t x since
  refine ⟨fun call => ⟨?_, ?_⟩, fun b body => ?_⟩
  · exact exec_running call.running rfl (receiveAnswer_heardAt (a := .ready) call rfl rfl nofun)
  · exact exec_running call.running rfl (receiveAnswer_heardAt (a := .notReady) call rfl rfl nofun)
  · exact exec_running body.running rfl (receiveAnswer_heardAt (a := .retry) body rfl rfl nofun)

/-! ### Attempts used -/

/-- Settles O43: the three ways to a garbled answer, and silence below DOWN_LIMIT. -/
theorem attemptsAreUsed : Obligations.AttemptsAreUsed := by
  intro s l t x f since ex left
  refine ⟨fun bytes unfit begun => ?_, fun receiving => ?_, fun receiving frame due => ?_, fun waiting silent below => ?_⟩
  · rw [← answerDrop_txn ex.clear ex.txn] at unfit
    exact exec_running ex.running rfl ((receiveAnswer_invalid (s := s.clock t) ex.clear ex.txn
      (answered?_of_phase ex.phase begun) (answerValid_any_unfit unfit)).trans (garbledAnswer_left left _ _))
  · exact exec_running ex.running rfl ((cutShort_txn (s := s.clock t) (readOnly := false) ex.clear ex.txn receiving
      nofun).trans (garbledAnswer_left left _ _))
  · have overdue : cutShort.overdue (s.clock t) x.timing f since = true :=
      Bool.and_eq_true_iff.2 ⟨decide_eq_true frame, decide_eq_true (by rw [answerLimit, ← Nat.add_assoc]; exact due)⟩
    exact exec_running ex.running rfl ((cutShort_txn (s := s.clock t) ex.clear ex.txn receiving
      fun _ => overdue).trans (garbledAnswer_left left _ _))
  · exact exec_running ex.running rfl ((waitSilence_below (s := s.clock t) ex.txn waiting silent below).trans
      ((attemptFailed_left left _).trans (modLine_modLine ..)))

end Sys2Proof.Machine
end

section
/-!
O41: the frames of an exchange, and what an abandoned transaction leaves on its line.
-/

namespace Sys2Proof.Machine

/-- Settles O41: a stray character; the frames and answers of an exchange by its phase; those of an abandoned transaction. -/
theorem framesOfAnExchange : Obligations.FramesOfAnExchange := by
  intro s l t running
  refine ⟨exec_running running rfl rfl, fun x clear txn => ⟨fun f sending awaits => ?_, fun f since waiting intime => ?_,
    fun f since waiting late => ?_, fun f notBefore gap quiet => ⟨fun body => ?_, fun again => ?_, fun ends => ?_⟩⟩,
    fun ρ left => ⟨fun f sending awaits => ?_, fun sending => ?_, fun f sending broadcast silent => ?_,
      fun f since waiting intime => ?_, fun f since waiting late => ?_, fun f since arriving => ?_⟩⟩
  · exact exec_running running rfl (frameSent_txn (s := s.clock t) clear txn sending awaits)
  · exact exec_running running rfl (beginAnswer_txn (s := s.clock t) clear txn waiting intime)
  · have restarts (a : Option Answer) := receiveAnswer_late (s := s.clock t) clear txn waiting late a
    exact ⟨exec_running running rfl (beginAnswer_txn_late (s := s.clock t) clear txn waiting late),
      exec_running running rfl (restarts _), exec_running running rfl (restarts _), exec_running running rfl (restarts _),
      exec_running running rfl (restarts _), fun _ => exec_running running rfl (restarts _),
      fun _ _ _ _ _ => exec_running running rfl (restarts _), fun _ _ _ _ _ _ => exec_running running rfl (restarts _),
      fun _ => exec_running running rfl (restarts _)⟩
  · have isBody : f.isBody = true ∧ f.isEnd = false := by rcases body with ⟨b, rfl⟩ | rfl <;> exact ⟨rfl, rfl⟩
    exact exec_running running rfl
      ((nextFrame_attempt (s := s.clock t) txn gap quiet isBody.2).trans (sendFrame_body isBody.1))
  · have other : f.isBody = false ∧ f.isEnd = false := by rcases again with rfl | rfl | rfl | rfl <;> exact ⟨rfl, rfl⟩
    exact exec_running running rfl
      ((nextFrame_attempt (s := s.clock t) txn gap quiet other.2).trans (sendFrame_again other.1))
  · subst ends
    exact exec_running running rfl (nextFrame_end (s := s.clock t) txn gap quiet)
  · exact exec_running running rfl (frameSent_residue (s := s.clock t) left sending awaits)
  · exact exec_running running rfl (endEnds_residue (s := s.clock t) left sending)
  · exact exec_running running rfl (broadcastEnds_residue (s := s.clock t) left sending broadcast silent)
  · exact exec_running running rfl (beginAnswer_residue (s := s.clock t) left waiting intime)
  · exact exec_running running rfl (beginAnswer_residue_late (s := s.clock t) left waiting late)
  · have answered := answered?_of_arriving (now := (s.clock t).now) arriving
    refine ⟨fun call => ?_, fun short => ?_, fun bytes unfit => ?_, fun receiving => ?_⟩
    · subst call
      exact ⟨exec_running running rfl (receiveAnswer_residue_valid (s := s.clock t) left answered rfl),
        exec_running running rfl (receiveAnswer_residue_invalid (s := s.clock t) left answered rfl)⟩
    · rcases short with rfl | rfl <;>
        exact ⟨exec_running running rfl (receiveAnswer_residue_valid (s := s.clock t) left answered rfl),
          exec_running running rfl (receiveAnswer_residue_invalid (s := s.clock t) left answered rfl)⟩
    · rw [← answerDrop_residue left] at unfit
      exact exec_running running rfl (receiveAnswer_residue_invalid (s := s.clock t) left answered
        (answerValid_any_unfit unfit))
    · exact exec_running running rfl ((cutShort_residue (s := s.clock t) left receiving).trans
        ((residueAnswer_garbled _ _).trans (modLine_modLine ..)))

end Sys2Proof.Machine
end

section
/-!
O40: the choice of the arbiter.
-/

namespace Sys2Proof.Machine

variable {s : State} {l : LineNo} {t : Time} {r : RobotNo} {a b : Bool} {now : Nat}

/-! ### The poll due earliest (R122) -/

theorem duePoll_mem {c : List PollEntry} {q : PollEntry} (h : duePoll now c = some q) : q ∈ c := by
  induction c with
  | nil => cases h
  | cons p ps ih =>
    unfold duePoll at h
    split at h
    · split at h
      · exact Option.some.inj h ▸ List.mem_cons_self
      · cases h
    · rename_i found
      split at h
      · exact Option.some.inj h ▸ List.mem_cons_self
      · exact List.mem_cons_of_mem _ (ih (found.trans h))

theorem duePoll_none {c : List PollEntry} (early : ∀ q ∈ c, now < q.due) : duePoll now c = none := by
  induction c with
  | nil => rfl
  | cons p ps ih =>
    rw [duePoll, ih fun q hq => early q (List.mem_cons_of_mem _ hq)]
    exact if_neg (Nat.not_le.2 (early p List.mem_cons_self))

/-- A due poll before which none is due, and after which none is due earlier, is taken. -/
theorem duePoll_head {p : PollEntry} {after : List PollEntry} (due : p.due ≤ now) (later : ∀ q ∈ after, p.due ≤ q.due) :
    duePoll now (p :: after) = some p := by
  unfold duePoll
  cases found : duePoll now after with
  | none => exact if_pos due
  | some q => exact if_pos ⟨due, later q (duePoll_mem found)⟩

/-- The poll due earliest is taken, the first of those due at one time. -/
theorem duePoll_earliest {p : PollEntry} {before after : List PollEntry} (due : p.due ≤ now)
    (earlier : ∀ q ∈ before, p.due < q.due) (later : ∀ q ∈ after, p.due ≤ q.due) :
    duePoll now (before ++ p :: after) = some p := by
  induction before with
  | nil => exact duePoll_head due later
  | cons q before ih =>
    rw [List.cons_append, duePoll, ih fun q hq => earlier q (List.mem_cons_of_mem _ hq)]
    exact if_neg fun first => Nat.not_le.2 (earlier q List.mem_cons_self) first.2

/-! ### When the arbiter may choose (R122, R136) -/

theorem Residue.busy_iff {ρ : Residue} :
    ρ.busy = true ↔ ∃ f, ρ.txn.phase = .sending f ∨ ∃ since, ρ.txn.phase = .receiving f since := by
  unfold Residue.busy
  cases ρ.txn.phase <;> simp

theorem residue_any_busy_iff {e : Line} : e.residue.any Residue.busy = true ↔
    ∃ ρ f, e.residue = some ρ ∧ (ρ.txn.phase = .sending f ∨ ∃ since, ρ.txn.phase = .receiving f since) := by
  simp only [Option.any_eq_true, Residue.busy_iff, ← exists_and_left]

theorem Line.mayChoose_iff {e : Line} : e.mayChoose now = true ↔
    e.state = .idle ∧ ¬e.residue.any Residue.busy = true ∧ e.lastChar + e.timing.tGap.toNat ≤ now := by
  simp only [Line.mayChoose, Bool.and_eq_true, decide_eq_true_eq, Bool.not_eq_true', Bool.not_eq_true, and_assoc]

/-! ### The choice (R117, R119, R120) -/

/-- A transaction begun after a change of the line. -/
theorem startTxn_modLine (lists : Line → Line) (kind : TxnKind) (body : Option Body) (drop : Byte) (st : EngineState)
    (f : FrameKind) : (s.modLine l lists).startTxn l kind body drop st f = s.modLine l fun e => { lists e with
      state := st
      txn := some { kind := kind, body := body, drop := drop, timing := (lists e).timing, calls := 1, bodies := 0,
                    phase := .sending f, stale := false }
      residue := none
      counters := { (lists e).counters with transactions := countUp (lists e).counters.transactions } } :=
  modLine_modLine ..

/-- The HALT broadcast goes first. -/
theorem arbiterChoice_halt (halt : (s.line l).haltPending = true) : arbiterChoice s l =
    (s.modLine l fun e => { e with haltPending := false }).startTxn l .haltAll none Config.broadcastDrop .sending .haltAll :=
  if_pos halt

/-- The GO goes before the lists. -/
theorem arbiterChoice_go {g : GoFlag} (calm : (s.line l).haltPending = false) (go : (s.line l).goPending = some g) :
    arbiterChoice s l =
      (s.modLine l fun e => { e with goPending := none }).startTxn l (.go g) none Config.broadcastDrop .sending (.go g) := by
  simp only [arbiterChoice, calm, go, Bool.false_eq_true, if_false]

section

variable (calm : (s.line l).haltPending = false) (noGo : (s.line l).goPending = none)

include calm noGo

theorem arbiterChoice_urgent {x : UrgentEntry} {rest : List UrgentEntry} (urgent : (s.line l).urgent = x :: rest) :
    arbiterChoice s l = startUrgent s l x rest := by
  simp only [arbiterChoice, calm, noGo, urgent, Bool.false_eq_true, if_false]

theorem arbiterChoice_normal {x : NormalEntry} {rest : List NormalEntry} (urgent : (s.line l).urgent = [])
    (normal : (s.line l).normal = x :: rest) : arbiterChoice s l = startNormal s l x rest := by
  simp only [arbiterChoice, calm, noGo, urgent, normal, Bool.false_eq_true, if_false]

theorem arbiterChoice_poll {p : PollEntry} (urgent : (s.line l).urgent = []) (normal : (s.line l).normal = [])
    (due : duePoll s.now (s.line l).cycle = some p) :
    arbiterChoice s l = s.startTxn l (.poll p.robot) none (s.dropOf p.robot) .awaiting .poll := by
  simp only [arbiterChoice, calm, noGo, urgent, normal, due, Bool.false_eq_true, if_false]

theorem arbiterChoice_nothing (urgent : (s.line l).urgent = []) (normal : (s.line l).normal = [])
    (due : duePoll s.now (s.line l).cycle = none) : arbiterChoice s l = s := by
  simp only [arbiterChoice, calm, noGo, urgent, normal, due, Bool.false_eq_true, if_false]

end

/-- The DELIVER of a head starts first, its member IN_FLIGHT; a READ joined to it stays at the head (R117, R120). -/
theorem startNormal_deliver {m : Member} {rest : List NormalEntry} (hm : s.member? r = some m) :
    startNormal s l ⟨r, true, a, b⟩ rest = ((s.modMember r fun m => { m with delivery := .inFlight }).modLine l fun e =>
      { e with normal := if a || b then ⟨r, false, a, b⟩ :: rest else rest }).startTxn l (.deliver r) (some m.plan.body)
        (s.dropOf r) .calling .call := by
  rw [← modMember_modLine]
  simp only [startNormal, if_true, hm]
  rfl

/-- Settles O40: the arbiter's conditions, then its choices in their order. -/
theorem arbiterChoosesByPriority : Obligations.ArbiterChoosesByPriority := by
  intro s l t running
  refine ⟨fun blocked => ?_, fun idle free quiet => ?_⟩
  · refine exec_running running rfl (if_neg fun may => ?_)
    obtain ⟨idle, free, quiet⟩ := Line.mayChoose_iff.1 may
    rcases blocked with state | busy | early
    · exact state idle
    · exact free (residue_any_busy_iff.2 busy)
    · exact Nat.not_le.2 early quiet
  have may : ((s.clock t).line l).mayChoose (s.clock t).now = true :=
    Line.mayChoose_iff.2 ⟨idle, mt residue_any_busy_iff.1 free, quiet⟩
  have chooses {v : State} (choice : arbiterChoice (s.clock t) l = v) : exec (.lineArbiterChoose l t) s = .next v :=
    exec_running running rfl ((if_pos may).trans choice)
  refine ⟨fun halt => ?_, fun calm => ⟨fun g go => ?_, fun noGo => ⟨fun r rest urgent => ?_, fun r rest urgent => ?_,
    fun noUrgent => ⟨fun r a b rest normal => ?_, fun r a b rest m normal hm => ?_, fun noNormal =>
      ⟨fun before p after cycle due earlier later => ?_, fun early => ?_⟩⟩⟩⟩⟩
  · exact chooses ((arbiterChoice_halt (s := s.clock t) halt).trans (startTxn_modLine ..))
  · exact chooses ((arbiterChoice_go (s := s.clock t) calm go).trans (startTxn_modLine ..))
  · exact chooses ((arbiterChoice_urgent (s := s.clock t) calm noGo urgent).trans (startTxn_modLine ..))
  · exact chooses ((arbiterChoice_urgent (s := s.clock t) calm noGo urgent).trans (startTxn_modLine ..))
  · exact chooses ((arbiterChoice_normal (s := s.clock t) calm noGo noUrgent normal).trans (startTxn_modLine ..))
  · exact chooses ((arbiterChoice_normal (s := s.clock t) calm noGo noUrgent normal).trans
      ((startNormal_deliver (s := s.clock t) hm).trans (startTxn_modLine ..)))
  · refine chooses (arbiterChoice_poll (s := s.clock t) calm noGo noUrgent noNormal ?_)
    exact (congrArg (duePoll _) cycle).trans (duePoll_earliest due earlier later)
  · exact chooses (arbiterChoice_nothing (s := s.clock t) calm noGo noUrgent noNormal (duePoll_none early))

end Sys2Proof.Machine
end

section
/-!
O10, O13, O22, O1, O3, O12: the trunk port's receiving and dispatching halves, the checks of a LOAD, the part held in reset and
the step itself.
-/

namespace Sys2Proof.Machine

variable {s : State} {f : Frame} {r : Reply}

/-! ### A good frame offered while a reply is sent (R157, R159) -/

/-- While a reply is being sent no frame is taken (R159). -/
theorem dispatchNext_replying (disp : s.trunk.disp = .replying r) : dispatchNext s = s := by
  unfold dispatchNext
  rw [disp]

theorem offerFrame_disp (s : State) (f : Frame) : (offerFrame s f).trunk.disp = s.trunk.disp := by
  unfold offerFrame
  split <;> rfl

/-- A good frame that arrives while a reply is sent waits in the queue, or is lost to a full one (R157). -/
theorem acceptFrame_replying (disp : s.trunk.disp = .replying r) : acceptFrame s f =
    if s.trunk.queue.length < 8 then
      { s with trunk := { s.trunk with rx := .hunt, queue := s.trunk.queue ++ [f] } }
    else
      { s with
        trunk := { s.trunk with rx := .hunt, overrun := countUp s.trunk.overrun }
        events := s.events.put .trunkError ((s.events.get .trunkError).raised 2) } :=
  dispatchNext_replying ((offerFrame_disp _ f).trans disp)

/-- The frame of a request is accepted unless the receiver skips or its payload is too long (R154, R155). -/
theorem submit_accepted (rx : s.trunk.rx ≠ .skip) (fits : f.payload.length ≤ 512) : submit s f = acceptFrame s f := by
  have short : ¬Config.payloadMax < f.payload.length := Nat.not_lt.2 fits
  unfold submit
  split
  · next skip => exact absurd skip rx
  · exact if_neg short
  · exact if_neg short

/-- In FRAME a request's frame arrives as any frame does that completes with its own CRC (R155). -/
theorem submit_eq_frameComplete (rx : s.trunk.rx = .frame) : submit s f = frameComplete s f (crc f.checked) := by
  unfold submit frameComplete
  rw [rx]
  dsimp only
  rw [if_pos rfl]

/-- Settles O10: a request command hands its frame to the port, as the completion of that frame does. -/
theorem requestCommandIsItsFrame : Obligations.RequestCommandIsItsFrame := by
  intro c f s frame low
  have submits := exec_request frame low
  refine ⟨fun rx => ?_, fun r rx fits disp => ?_⟩
  · have completes : exec (.trunkFrameComplete f.dest f.kind f.payload (crc f.checked)) s =
        .next (frameComplete s f (crc f.checked)) := running_run low fun s => frameComplete s f (crc f.checked)
    rw [submits, completes, submit_eq_frameComplete rx]
  · rw [submits, submit_accepted rx fits, acceptFrame_replying disp]
    exact apply_ite _ _ _ _

/-! ### The end of a reply (R159) -/

/-- In WAITING the frame at the head of the queue is carried out and its reply begins (R159, R162). -/
theorem dispatchNext_head {rest : List Frame} (disp : s.trunk.disp = .waiting) (queue : s.trunk.queue = f :: rest) :
    let v := serve { s with trunk := { s.trunk with queue := rest } } f
    dispatchNext s = { v.state with trunk := { s.trunk with queue := rest, disp := .replying (replyTo f v) } } := by
  have trunk := (Serves.serve (s := { s with trunk := { s.trunk with queue := rest } }) f).trunk
  unfold dispatchNext
  rw [disp, queue]
  dsimp only
  rw [take, trunk]

/-- In WAITING with an empty queue nothing is taken (R159). -/
theorem dispatchNext_empty (queue : s.trunk.queue = []) : dispatchNext s = s := by
  unfold dispatchNext
  rw [queue]
  cases s.trunk.disp <;> rfl

/-- The end of a reply to anything but a RESET returns the dispatching half to WAITING, which takes the next frame (R159). -/
theorem replyEnds_waiting (disp : s.trunk.disp = .replying r) (other : r.kind ≠ 25 ∨ r.status ≠ .ok) :
    replyEnds s = dispatchNext { s with trunk := { s.trunk with disp := .waiting } } := by
  have notReset : ¬r.isReset = true := by
    simp only [Reply.isReset, Bool.and_eq_true, decide_eq_true_eq]
    rintro ⟨kind, status⟩
    exact other.elim (absurd kind) (absurd status)
  unfold replyEnds
  rw [disp]
  dsimp only
  rw [if_neg notReset]

/-- Settles O13: the dispatching half waits, and takes the head of the queue if there is one. -/
theorem replyEndsAndNextIsTaken : Obligations.ReplyEndsAndNextIsTaken := by
  intro s r low disp other
  have ends : exec .replySent s = .next (dispatchNext { s with trunk := { s.trunk with disp := .waiting } }) :=
    (running_run low replyEnds).trans (congrArg _ (replyEnds_waiting disp other))
  refine ⟨fun empty => ends.trans (congrArg _ (dispatchNext_empty empty)), fun f rest queue => ?_⟩
  exact ends.trans (congrArg _ (dispatchNext_head (s := { s with trunk := { s.trunk with disp := .waiting } }) rfl queue))

/-! ### The checks of a LOAD (R165) -/

/-- A LOAD that its checks answer ERROR changes nothing. -/
theorem exec_load_denied {first count : Half} {records : List Byte} (ready : Ready s) (short : records.length + 5 ≤ 512)
    {c : Instr} {table : Byte} (frame : requestFrame c = some (loadFrame 0xFFFF table first count records)) {why : Reason}
    (served : serveLoad s.hunting table first count records = Served.error s.hunting why) :
    exec c s = .next (s.deny 0xFFFF 16 why) := by
  refine exec_answer frame ready ?_ ?_
  · simp only [loadFrame, List.length_cons, List.length_append, le16_length, Config.payloadMax]
    omega
  · rw [serve, parse_load]
    exact served

/-- A LOAD is answered INDEX for a bad run, then LENGTH for records that do not fill the payload (R165). -/
theorem exec_load_checked {first count : Half} {records : List Byte} (ready : Ready s) (short : records.length + 5 ≤ 512)
    {c : Instr} {table : Byte} {size width : Nat}
    (frame : requestFrame c = some (loadFrame 0xFFFF table first count records))
    (shape : loadShape table = some (size, width)) :
    (count.toNat = 0 ∨ size < first.toNat + count.toNat → exec c s = .next (s.deny 0xFFFF 16 .index)) ∧
    (count.toNat ≠ 0 → first.toNat + count.toNat ≤ size → records.length ≠ count.toNat * width →
      exec c s = .next (s.deny 0xFFFF 16 .length)) := by
  refine ⟨fun run => exec_load_denied ready short frame ?_, fun some fits unequal => exec_load_denied ready short frame ?_⟩
  · simp only [serveLoad, shape, if_pos run]
  · have run : ¬(count.toNat = 0 ∨ size < first.toNat + count.toNat) := by omega
    simp only [serveLoad, shape, if_neg run, if_pos unequal]

/-- Settles O22: the checks are one rule for the six tables. -/
theorem loadsAreChecked : Obligations.LoadsAreChecked := fun _ _ _ _ ready short =>
  ⟨exec_load_checked ready short rfl rfl, exec_load_checked ready short rfl rfl, exec_load_checked ready short rfl rfl,
    exec_load_checked ready short rfl rfl, exec_load_checked ready short rfl rfl, exec_load_checked ready short rfl rfl⟩

/-! ### The step -/

/-- Settles O1, by the two forms of the queue. -/
theorem stepRunsTheFrontCommand : Obligations.StepRunsTheFrontCommand := by
  refine fun s => ⟨fun c rest front => ?_, fun empty => ?_⟩
  · rw [step, front]
  · rw [step, empty]

/-! ### The part held in reset (R172) -/

/-- Every command but POWER_ON_RESET is a command of the running part, and has no effect while RESET_N is low (log entry 8). -/
theorem exec_held (held : s.resetLow = true) {c : Instr} (other : c ≠ .powerOnReset) : exec c s = .next s := by
  cases c
  case powerOnReset => exact absurd rfl other
  all_goals exact congrArg Host.Outcome.next (if_pos held)

/-- Settles O3: the fall of RESET_N, then its two outputs and its commands while it is low. -/
theorem resetHeldLow : Obligations.ResetHeldLow := by
  refine ⟨fun s low => running_run low holdReset, fun s held => ⟨?_, fun l => ?_, fun c other => exec_held held other⟩⟩
  · rw [attnOutput, held]; rfl
  · rw [driverEnable, held]; rfl

/-! ### The moves of the receiving half (R154, R156, R158) -/

theorem frameBegins_eq (s : State) : frameBegins s = if s.trunk.rx = .hunt then s.setRx .frame else s := by
  cases rx : s.trunk.rx <;> simp [frameBegins, rx]

theorem lengthOversize_eq (s : State) {n : Half} (long : 512 < n.toNat) :
    lengthOversize s n = if s.trunk.rx = .frame then skipFrame s else s := by
  have oversize : Config.payloadMax < n.toNat := long
  cases rx : s.trunk.rx <;> simp [lengthOversize, rx, oversize]

theorem gapAbandon_eq (s : State) : gapAbandon s = if s.trunk.rx = .frame then
    { s with trunk := { s.trunk with rx := .hunt, gapAbandoned := countUp s.trunk.gapAbandoned } } else s := by
  cases rx : s.trunk.rx <;> simp [gapAbandon, rx]

theorem skipQuiet_eq (s : State) : skipQuiet s = if s.trunk.rx = .skip then s.setRx .hunt else s := by
  cases rx : s.trunk.rx <;> simp [skipQuiet, rx]

/-- Settles O12, move by move. -/
theorem receiverMoves : Obligations.ReceiverMoves := fun s low =>
  ⟨(running_run low frameBegins).trans (congrArg _ (frameBegins_eq s)),
    fun n long => (running_run low fun s => lengthOversize s n).trans (congrArg _ (lengthOversize_eq s long)),
    (running_run low gapAbandon).trans (congrArg _ (gapAbandon_eq s)),
    (running_run low skipQuiet).trans (congrArg _ (skipQuiet_eq s))⟩

end Sys2Proof.Machine
end

section
/-!
O32 to O35: the Event Unit. What a raise does to the class records, which class the attention value names, and the requests TAKE
and MASK.
-/

namespace Sys2Proof.Machine

/-! ### Class records after a raise (R174) -/

section

variable (s : State) (c : EventClass) (d : Half)

/-- The records after a raise: that of the class raised, and the others as they stood. -/
theorem raise_get (c' : EventClass) : (s.raise c d).events.get c' =
    if c = c' then (s.events.get c).raised d else s.events.get c' :=
  Events.get_put ..

theorem raise_get_self : (s.raise c d).events.get c = (s.events.get c).raised d :=
  (raise_get s c d c).trans (if_pos rfl)

theorem raise_get_other {c' : EventClass} (other : c' ≠ c) : (s.raise c d).events.get c' = s.events.get c' :=
  (raise_get s c d c').trans (if_neg other.symm)

/-- The record after a raise, case by case of its count. -/
theorem EventRec.raised_cases (x : EventRec) : x.raised d =
    if x.count = 0 then ⟨1, d, d⟩ else if x.count = 255 then ⟨255, x.first, d⟩ else ⟨x.count + 1, x.first, d⟩ := by
  unfold EventRec.raised
  split
  · rfl
  · split
    · rename_i full
      rw [← full]
    · rfl

theorem EventRec.raised_last (x : EventRec) : (x.raised d).last = d := by
  rw [EventRec.raised_cases]
  split_ifs <;> rfl

/-- The last detail after raises is that of the last raise. -/
theorem raiseEach_last (ds : List Nat) : ((State.raiseEach s c (ds ++ [d.toNat])).events.get c).last = d := by
  have final : State.raiseEach s c (ds ++ [d.toNat]) = (State.raiseEach s c ds).raise c (halfOf d.toNat) :=
    List.foldl_concat ..
  have detail : halfOf d.toNat = d := by simp [halfOf]
  rw [final, detail, raise_get_self, EventRec.raised_last]

/-- Writes of the records of two classes do not meet. -/
theorem Events.put_comm (e : Events) {c c' : EventClass} (other : c' ≠ c) (x y : EventRec) :
    (e.put c x).put c' y = (e.put c' y).put c x := by
  have apart : c.idx.val ≠ c'.idx.val := fun same => other (EventClass.idx_inj (Fin.ext same)).symm
  exact congrArg (Events.mk · e.masks) (Vector.set_comm _ _ apart)

/-- Raises of two classes may come in either order. -/
theorem raise_comm {c' : EventClass} (other : c' ≠ c) (d' : Half) :
    (s.raise c d).raise c' d' = (s.raise c' d').raise c d := by
  have events : ((s.raise c d).raise c' d').events = ((s.raise c' d').raise c d).events := calc
    _ = (s.raise c d).events.put c' (((s.raise c d).events.get c').raised d') := rfl
    _ = (s.events.put c ((s.events.get c).raised d)).put c' ((s.events.get c').raised d') := by
      rw [raise_get_other s c d other]; rfl
    _ = (s.events.put c' ((s.events.get c').raised d')).put c ((s.events.get c).raised d) := Events.put_comm _ other ..
    _ = (s.raise c' d').events.put c (((s.raise c' d').events.get c).raised d) := by
      rw [raise_get_other s c' d' other.symm]; rfl
  exact congrArg (fun e => { s with events := e }) events

end

/-- Settles O34, by the record of the class raised, and the records of the others. -/
theorem raiseChangesOneRecord : Obligations.RaiseChangesOneRecord := fun s c d =>
  ⟨(raise_get_self s c d).trans (EventRec.raised_cases d _), fun _ other => raise_get_other s c d other,
    ⟨(s.raise c d).events, rfl, rfl⟩, fun ds => ⟨raiseEach_last s c d ds, raiseEach_count s c ds⟩,
    fun _ d' other => raise_comm s c d other d'⟩

/-! ### The attention value (R175, R176) -/

section

variable {e : Events} {c : EventClass}

/-- A class takes part in the attention value when it is pending and its group is unmasked. -/
theorem Events.eligible_iff : e.eligible c = true ↔ (e.get c).count ≠ 0 ∧ e.masks.masked c.group = false := by
  simp [Events.eligible]

theorem EventClass.mem_byPriority (c : EventClass) : c ∈ EventClass.byPriority := by
  cases c <;> decide

theorem EventClass.byPriority_sorted : EventClass.byPriority.Pairwise fun c d => c.idx < d.idx := by
  decide

/-- The class found is the eligible class of highest priority: what stands after it in the list has a lower one. -/
theorem Events.attention?_highest (shown : e.eligible c = true) (highest : ∀ d, e.eligible d = true → c.idx ≤ d.idx) :
    e.attention? = some c := by
  obtain ⟨before, after, place⟩ := List.append_of_mem (EventClass.mem_byPriority c)
  have sorted := EventClass.byPriority_sorted
  rw [place, List.pairwise_append] at sorted
  obtain ⟨-, -, earlier⟩ := sorted
  refine List.find?_eq_some_iff_append.2 ⟨shown, before, after, place, fun d hd => ?_⟩
  rw [Bool.not_eq_true', Bool.eq_false_iff]
  exact fun eligible => Nat.not_lt.2 (highest d eligible) (earlier d hd c List.mem_cons_self)

theorem Events.attention?_none (hidden : ∀ c, ¬e.eligible c = true) : e.attention? = none :=
  List.find?_eq_none.2 fun c _ => hidden c

theorem Events.attention_some (found : e.attention? = some c) : e.attention = c.code := by
  rw [Events.attention, found]

theorem Events.attention_none (none : e.attention? = none) : e.attention = 0 := by
  rw [Events.attention, none]

/-- The attention value depends only on which classes are eligible. -/
theorem Events.attention_congr {e' : Events} (same : ∀ c, e'.eligible c = e.eligible c) : e'.attention = e.attention := by
  have found : e'.attention? = e.attention? := congrArg (EventClass.byPriority.find? ·) (funext same)
  rw [Events.attention, Events.attention, found]

/-- A class is pending after a raise of it (R174). -/
theorem EventRec.raised_count_ne_zero (x : EventRec) (d : Half) : (x.raised d).count ≠ 0 := by
  intro zero
  have counted : 0 = min 255 (x.count.toNat + 1) := (congrArg BitVec.toNat zero).symm.trans (EventRec.raised_count x d)
  omega

/-- A raise makes no class eligible that was pending, or that is masked. -/
theorem raise_attention (s : State) (d : Half)
    (quiet : (s.events.get c).count ≠ 0 ∨ s.events.masks.masked c.group = true) :
    (s.raise c d).events.attention = s.events.attention := by
  refine Events.attention_congr fun c' => Bool.eq_iff_iff.2 ?_
  rw [Events.eligible_iff, Events.eligible_iff, show (s.raise c d).events.masks = s.events.masks from rfl]
  by_cases same : c' = c
  · subst same
    rw [raise_get_self]
    refine and_congr_left fun unmasked => iff_of_true (EventRec.raised_count_ne_zero _ d) (quiet.resolve_right ?_)
    rw [unmasked]; decide
  · rw [raise_get_other s c d same]

/-- ATTN follows the attention value while the part runs. -/
theorem attnOutput_iff {s : State} (running : s.resetLow = false) : attnOutput s = true ↔ s.events.attention ≠ 0 := by
  simp [attnOutput, running]

end

/-- Settles O35: the class found, then each place that carries its code. -/
theorem attentionValue : Obligations.AttentionValue := by
  refine fun s => ⟨fun c shown highest => ?_, fun hidden => ?_, fun c d quiet => raise_attention s d quiet,
    fun f => ⟨replyTo f (serve s f), rfl, rfl⟩, List.getLast?_append_of_ne_nil _ (List.cons_ne_nil _ _), fun c => ?_,
    (status_tail s 18).trans (status_masks s).1, attnOutput_iff⟩
  · exact Events.attention_some (Events.attention?_highest (Events.eligible_iff.2 shown)
      fun d eligible => highest d (Events.eligible_iff.1 eligible))
  · exact Events.attention_none (Events.attention?_none fun c => mt Events.eligible_iff.1 (hidden c))
  · rw [← status_class, ← status_tail, ← Nat.add_assoc]

/-! ### TAKE (R179) -/

section

variable {s : State}

theorem takeRequest_some {c : EventClass} (found : s.events.attention? = some c) : takeRequest s =
    ⟨{ s with events := s.events.put c EventRec.empty }, .ok,
      [c.code, (s.events.get c).count] ++ le16 (s.events.get c).first ++ le16 (s.events.get c).last⟩ := by
  rw [takeRequest, found]

theorem takeRequest_none (none : s.events.attention? = none) : takeRequest s = ⟨s, .ok, List.replicate 6 0⟩ := by
  rw [takeRequest, none]

theorem exec_take (ready : Ready s) {t : State} {status : Status} {payload : List Byte}
    (served : takeRequest s.hunting = ⟨t.hunting, status, payload⟩) :
    exec (.take 0xFFFF) s = .next (t.answer 0xFFFF 21 status payload) :=
  exec_answer (f := bareFrame 0xFFFF 21) rfl ready (Nat.zero_le _) (by rw [serve, parse_take]; exact served)

end

/-- Settles O32: the class that is the attention value is emptied, or there is none. -/
theorem takeOutcome : Obligations.TakeOutcome := by
  refine fun s ready => ⟨fun c shown highest => ?_, fun hidden => ?_⟩
  · have found : s.events.attention? = some c := Events.attention?_highest (Events.eligible_iff.2 shown)
      fun d eligible => highest d (Events.eligible_iff.1 eligible)
    refine ⟨s.events.put c EventRec.empty, (Events.get_put ..).trans (if_pos rfl),
      fun d other => (Events.get_put ..).trans (if_neg other.symm), rfl, ?_⟩
    exact exec_take (t := { s with events := s.events.put c EventRec.empty }) ready
      (takeRequest_some (s := s.hunting) found)
  · have none : s.events.attention? = none := Events.attention?_none fun c => mt Events.eligible_iff.1 (hidden c)
    exact ⟨exec_take ready (takeRequest_none (s := s.hunting) none), Events.attention_none none⟩

/-! ### MASK (R177) -/

/-- A mask byte is answered 1 for any value but 0. -/
theorem boolByte_readBool (b : Byte) : boolByte (readBool b) = if b = 0 then 0 else 1 := by
  by_cases zero : b = 0 <;> simp [boolByte, readBool, zero]

/-- The events after a MASK: the records kept, the masks those of the request. -/
def Events.withMasks (e : Events) (fault timing flow link : Byte) : Events :=
  { e with masks := ⟨readBool fault, readBool timing, readBool flow, readBool link⟩ }

theorem exec_mask {s : State} (ready : Ready s) (fault timing flow link : Byte) :
    exec (.mask 0xFFFF fault timing flow link) s =
      .next (({ s with events := s.events.withMasks fault timing flow link }).answer 0xFFFF 22 .ok
        [boolByte (readBool fault), boolByte (readBool timing), boolByte (readBool flow), boolByte (readBool link)]) :=
  exec_answer (f := maskFrame 0xFFFF fault timing flow link)
    (t := { s with events := s.events.withMasks fault timing flow link }) rfl ready (by show 4 ≤ 512; decide)
    (by rw [serve, parse_mask]; rfl)

/-- Settles O33: a MASK and a raise write different fields of the Event Unit, so that their order does not matter. -/
theorem maskOutcome : Obligations.MaskOutcome := by
  refine fun s fault timing flow link ready => ⟨s.events.withMasks fault timing flow link, rfl, rfl, ?_, fun c d => ?_⟩
  · rw [exec_mask ready]
    simp only [boolByte_readBool]
  · exact ⟨_, exec_mask (s := s.raise c d) ready fault timing flow link, rfl⟩

end Sys2Proof.Machine
end

section
/-!
O2: every command completes and keeps the queue of waiting commands, which is the model's own (log entries 1 and 25).
-/

namespace Sys2Proof.Machine

section

variable {s : State}

theorem ite_pending {p : Prop} [Decidable p] {a b : State} (ha : a.pending = s.pending) (hb : b.pending = s.pending) :
    (if p then a else b).pending = s.pending := by split <;> assumption

/-! ### The trunk port -/

@[simp] theorem serve_pending (f : Frame) : (serve s f).state.pending = s.pending := (Serves.serve f).pending

@[simp] theorem dispatchNext_pending : (dispatchNext s).pending = s.pending := by
  unfold dispatchNext
  split
  · exact serve_pending _
  · rfl
  · rfl

@[simp] theorem offerFrame_pending (f : Frame) : (offerFrame s f).pending = s.pending := ite_pending rfl rfl

@[simp] theorem acceptFrame_pending (f : Frame) : (acceptFrame s f).pending = s.pending :=
  dispatchNext_pending.trans (offerFrame_pending f)

@[simp] theorem badCheck_pending : (badCheck s).pending = s.pending := rfl

@[simp] theorem skipFrame_pending : (skipFrame s).pending = s.pending := rfl

@[simp] theorem submit_pending (f : Frame) : (submit s f).pending = s.pending := by
  have arrives : (if Config.payloadMax < f.payload.length then skipFrame s else acceptFrame s f).pending = s.pending :=
    ite_pending skipFrame_pending (acceptFrame_pending f)
  unfold submit
  split
  · rfl
  · exact arrives
  · exact arrives

@[simp] theorem frameComplete_pending (f : Frame) (check : Half) : (frameComplete s f check).pending = s.pending := by
  unfold frameComplete
  split
  · rfl
  · rfl
  · exact ite_pending skipFrame_pending (ite_pending (acceptFrame_pending f) badCheck_pending)

@[simp] theorem lengthOversize_pending (n : Half) : (lengthOversize s n).pending = s.pending := by
  unfold lengthOversize
  split
  · rfl
  · rfl
  · exact ite_pending skipFrame_pending rfl

@[simp] theorem gapAbandon_pending : (gapAbandon s).pending = s.pending := by
  rw [gapAbandon_eq]
  exact ite_pending rfl rfl

@[simp] theorem skipQuiet_pending : (skipQuiet s).pending = s.pending := by
  rw [skipQuiet_eq]
  exact ite_pending rfl rfl

@[simp] theorem frameBegins_pending : (frameBegins s).pending = s.pending := by
  rw [frameBegins_eq]
  exact ite_pending rfl rfl

@[simp] theorem controllerReset_pending : (controllerReset s).pending = s.pending := (controllerReset_rest s).1

@[simp] theorem replyEnds_pending : (replyEnds s).pending = s.pending := by
  unfold replyEnds
  split
  · rfl
  · exact dispatchNext_pending.trans (ite_pending controllerReset_pending rfl)

/-! ### The timebase -/

@[simp] theorem takeMark_pending (time : Nat) : (takeMark s time).pending = s.pending := Judged.waveMark.pending

@[simp] theorem takePulse_pending : (takePulse s).pending = s.pending := by
  unfold takePulse
  dsimp only
  split
  · exact ite_pending rfl rfl
  · exact (takeMark_pending _).trans (ite_pending rfl rfl)
  · exact ite_pending rfl rfl

/-! ### The commands -/

/-- A command of the running part completes, and keeps the waiting commands if the state it leads to does (R172, log entry 8). -/
theorem running_keeps_pending {u : State} (kept : u.pending = s.pending) :
    ∃ t, running s (fun _ => u) = .next t ∧ t.pending = s.pending := ⟨_, rfl, ite_pending rfl kept⟩

/-- A request command hands its frame to the port, and does nothing while RESET_N is low. -/
theorem exec_request_keeps_pending {c : Instr} {f : Frame} (frame : requestFrame c = some f) :
    ∃ t, exec c s = .next t ∧ t.pending = s.pending := by
  cases low : s.resetLow with
  | false => exact ⟨_, exec_request frame low, submit_pending f⟩
  | true =>
    have other : c ≠ .powerOnReset := by rintro rfl; cases frame
    exact ⟨s, exec_held low other, rfl⟩

theorem exec_lineEvent_keeps_pending {c : Instr} {l : LineNo} (event : eventLine c = some l) :
    ∃ t, exec c s = .next t ∧ t.pending = s.pending := by
  obtain ⟨t, time, run, frame⟩ := OnLine.exec (s := s) event
  exact ⟨t, run, frame.pending.trans (s.clock_pending time)⟩

/-- The commands left are the events of the port, the timebase and the overrun deadline, and the two ends of power-on reset. -/
theorem exec_ownEvent_keeps_pending {c : Instr} (noFrame : requestFrame c = none) (noLine : eventLine c = none) :
    ∃ t, exec c s = .next t ∧ t.pending = s.pending := by
  cases c <;> cases noFrame <;> cases noLine
  case trunkFrameComplete => exact running_keeps_pending (frameComplete_pending _ _)
  case trunkLengthOversize => exact running_keeps_pending (lengthOversize_pending _)
  case trunkGapAbandon => exact running_keeps_pending gapAbandon_pending
  case trunkSkipQuiet => exact running_keeps_pending skipQuiet_pending
  case replySent => exact running_keeps_pending replyEnds_pending
  case startCharacter => exact running_keeps_pending frameBegins_pending
  case resetNAssert => exact running_keeps_pending (u := holdReset s) rfl
  case powerOnReset => exact ⟨powerOn s, rfl, rfl⟩
  case epochMark => exact running_keeps_pending (takeMark_pending (s := s.clock _) _)
  case epochPulse => exact running_keeps_pending (takePulse_pending (s := s.clock _))
  case overrunDeadline r t => exact running_keeps_pending (Judged.overrunExpired (s := s.clock t) r).pending

end

/-- Settles O2: a command is a request, an event of one line, or one of the events that remain. -/
theorem everyCommandCompletes : Obligations.EveryCommandCompletes := by
  intro c s
  cases frame : requestFrame c with
  | some f => exact exec_request_keeps_pending frame
  | none =>
    cases event : eventLine c with
    | some l => exact exec_lineEvent_keeps_pending event
    | none => exact exec_ownEvent_keeps_pending frame event

end Sys2Proof.Machine
end
